-- ==== Sys2Proof/Word.lean ====
section
/-!
DEFINITION. The widths of the MSTU: the two lane formats (R5, R102), a lane, a vector of four lanes, the 256-bit bus and
the 32-bit command word (R6).
-/

namespace Sys2Proof

/-- The lane format of a command (R5, R72): four binary32 lanes or four binary64 lanes. -/
inductive Fmt where
  | f32
  | f64
deriving DecidableEq, Repr

/-- `w(F)` of R8: the lane width in bits. -/
@[reducible] def Fmt.width : Fmt → Nat
  | .f32 => 32
  | .f64 => 64

/-- Number of exponent bits (R102). -/
def Fmt.expBits : Fmt → Nat
  | .f32 => 8
  | .f64 => 11

/-- Number of fraction bits (R102). -/
def Fmt.fracBits : Fmt → Nat
  | .f32 => 23
  | .f64 => 52

/-- Exponent bias (R102). -/
def Fmt.bias : Fmt → Nat
  | .f32 => 127
  | .f64 => 1023

/-- A lane holds a bit pattern of the format's width (R10). -/
abbrev Lane (F : Fmt) := BitVec F.width

/-- A 256-bit operand or result bus (R6, R28). -/
abbrev Bus := BitVec 256

/-- The 32-bit command word (R70). -/
abbrev Word := BitVec 32

/-- A vector of exactly 4 lanes of one format (R5); `l0` is the source's "X", `l3` its "W" (R44). -/
structure Lanes (F : Fmt) where
  l0 : Lane F
  l1 : Lane F
  l2 : Lane F
  l3 : Lane F
deriving DecidableEq, Repr

/-- Lane `i` of a vector (R8). -/
def Lanes.get {F : Fmt} (v : Lanes F) : Fin 4 → Lane F
  | 0 => v.l0
  | 1 => v.l1
  | 2 => v.l2
  | 3 => v.l3

/-- The same pattern in all four lanes: a broadcast (R11, R41). -/
def Lanes.all {F : Fmt} (x : Lane F) : Lanes F := ⟨x, x, x, x⟩

/-- A per-lane operation of one operand (R133). -/
def Lanes.map {F : Fmt} (f : Lane F → Lane F) (a : Lanes F) : Lanes F :=
  ⟨f a.l0, f a.l1, f a.l2, f a.l3⟩

/-- A per-lane operation of two operands (R133). -/
def Lanes.map₂ {F : Fmt} (f : Lane F → Lane F → Lane F) (a b : Lanes F) : Lanes F :=
  ⟨f a.l0 b.l0, f a.l1 b.l1, f a.l2 b.l2, f a.l3 b.l3⟩

/-- A per-lane operation of three operands (R133). -/
def Lanes.map₃ {F : Fmt} (f : Lane F → Lane F → Lane F → Lane F) (a b c : Lanes F) : Lanes F :=
  ⟨f a.l0 b.l0 c.l0, f a.l1 b.l1 c.l1, f a.l2 b.l2 c.l2, f a.l3 b.l3 c.l3⟩

end Sys2Proof
end

