-- ==== Sys2Proof/Machine/Float.lean ====
section
/-!
DEFINITION. The floating-point primitives of R9 and R102 to R107, on lane bit patterns. A finite lane is an exact integer
number of quanta (the format's smallest subnormal), so every primitive computes exactly on integers and rounds once, to
nearest with ties to even.
-/

namespace Sys2Proof.Machine

/-! ### Patterns and classes (R102) -/

/-- The smallest subnormal of format `F` is `2 ^ -(quantumExp F)`: 149 for F32 and 1074 for F64. Every finite value of
the format is an integer multiple of it. -/
def quantumExp (F : Fmt) : Nat := F.bias + F.fracBits - 1

/-- `signbit` of R102: bit `w(F) - 1`. -/
def signbit (F : Fmt) (x : Lane F) : Bool := x.getLsbD (F.width - 1)

/-- The pattern without its sign bit, as a number. -/
def magnitude (F : Fmt) (x : Lane F) : Nat := x.toNat % 2 ^ (F.width - 1)

/-- The magnitude pattern of infinity: exponent all ones, fraction 0. -/
def infMagnitude (F : Fmt) : Nat := (2 ^ F.expBits - 1) * 2 ^ F.fracBits

/-- A lane pattern from a sign and a magnitude pattern. -/
def pack (F : Fmt) (sign : Bool) (mag : Nat) : Lane F :=
  BitVec.ofNat F.width (mag + if sign then 2 ^ (F.width - 1) else 0)

/-- `isNaN` of R102: exponent all ones, fraction not 0. -/
def isNaN (F : Fmt) (x : Lane F) : Bool := infMagnitude F < magnitude F x

/-- `isInf` of R102 and R237: `v AND SignClear` is the pattern of +∞. -/
def isInf (F : Fmt) (x : Lane F) : Bool := magnitude F x == infMagnitude F

/-- `isFinite` of R237: the exponent field is not all ones. -/
def isFinite (F : Fmt) (x : Lane F) : Bool := magnitude F x < infMagnitude F

/-- `isZero` of R102: exponent 0, fraction 0. -/
def isZero (F : Fmt) (x : Lane F) : Bool := magnitude F x == 0

/-- `quiet_F` of R107: bit 22 (F32) or bit 51 (F64) set, every other bit kept. -/
def quiet (F : Fmt) (x : Lane F) : Lane F := x ||| BitVec.twoPow F.width (F.fracBits - 1)

/-- The default NaN of R106: 0xFFC00000 or 0xFFF8000000000000. -/
def defaultNaN (F : Fmt) : Lane F := pack F true (infMagnitude F + 2 ^ (F.fracBits - 1))

/-- ±∞. -/
def infinity (F : Fmt) (sign : Bool) : Lane F := pack F sign (infMagnitude F)

/-- ±0. -/
def zero (F : Fmt) (sign : Bool) : Lane F := pack F sign 0

/-! ### Exact values and rounding (R103, R104) -/

/-- The value of a finite magnitude pattern, in quanta: with exponent field `E` and fraction `f` it is `f` when `E = 0`
(a zero or a subnormal, used at its value by R104) and `(2 ^ fracBits + f) * 2 ^ (E - 1)` otherwise. -/
def quantaOfMagnitude (F : Fmt) (mag : Nat) : Nat :=
  let e := mag / 2 ^ F.fracBits
  let f := mag % 2 ^ F.fracBits
  if e = 0 then f else (2 ^ F.fracBits + f) * 2 ^ (e - 1)

/-- The absolute value of a finite lane, in quanta. -/
def quanta (F : Fmt) (x : Lane F) : Nat := quantaOfMagnitude F (magnitude F x)

/-- The value of a finite lane, in quanta. -/
def signedQuanta (F : Fmt) (x : Lane F) : Int := if signbit F x then -(quanta F x : Int) else quanta F x

/-- `num / den` rounded to the nearest integer, ties to even (`den` is positive). -/
def roundDivEven (num den : Nat) : Nat :=
  let q := num / den
  let r := num % den
  if den < 2 * r ∨ (2 * r = den ∧ q % 2 = 1) then q + 1 else q

/-- The rounding of R103: the magnitude pattern nearest to `num / den` quanta, ties to even. A value past the largest
finite one by half a unit or more rounds to ∞; a tiny one gives the correctly rounded subnormal or 0 (R104). With `k` the
exponent of the last place, the pattern of significand `m` is `k * 2 ^ fracBits + m`; a carry out of the significand
increments the exponent field by itself. -/
def roundMagnitude (F : Fmt) (num den : Nat) : Nat :=
  let k := Nat.log2 (num / den) - F.fracBits
  let m := roundDivEven num (den * 2 ^ k)
  min (k * 2 ^ F.fracBits + m) (infMagnitude F)

/-- A sign and `num / den` quanta, rounded to a lane. -/
def roundLane (F : Fmt) (sign : Bool) (num den : Nat) : Lane F := pack F sign (roundMagnitude F num den)

/-- The largest `r` with `r * r ≤ n`, by Newton's steps from above; `fuel` bounds their number. -/
def sqrtSteps (n : Nat) : Nat → Nat → Nat
  | 0, x => x
  | fuel + 1, x =>
    let y := (x + n / x) / 2
    if y < x then sqrtSteps n fuel y else x

/-- The integer square root of `n`. -/
def natSqrt (n : Nat) : Nat :=
  let start := 2 ^ (Nat.log2 n / 2 + 1)
  sqrtSteps n start start

/-! ### The arithmetic primitives (R105 to R107) -/

/-- `fadd_F(a, b)` of R107: NaN operands first, in the written order (R105); ∞ - ∞ is the default NaN (R106); an exact
zero is +0 unless both operands are negative zeros (R103). -/
def fadd (F : Fmt) (a b : Lane F) : Lane F :=
  if isNaN F a then quiet F a
  else if isNaN F b then quiet F b
  else if isInf F a then
    if isInf F b && (signbit F a != signbit F b) then defaultNaN F else a
  else if isInf F b then b
  else
    let n := signedQuanta F a + signedQuanta F b
    if n = 0 then zero F (signbit F a && signbit F b)
    else roundLane F (decide (n < 0)) n.natAbs 1

/-- `x` with its sign bit flipped (NEG, R119). -/
def flipSign (F : Fmt) (x : Lane F) : Lane F := x ^^^ BitVec.twoPow F.width (F.width - 1)

/-- `fsub_F(a, b)` of R107: `fadd` of `a` and `b` with its sign flipped; a NaN operand is returned quieted with its own
sign (R105 keeps every other bit; DEDUCED, log entry 12). -/
def fsub (F : Fmt) (a b : Lane F) : Lane F :=
  if isNaN F a then quiet F a
  else if isNaN F b then quiet F b
  else fadd F a (flipSign F b)

/-- `fmul_F(a, b)` of R107: the sign is the exclusive-or of the signs, 0 · ∞ is the default NaN (R106). -/
def fmul (F : Fmt) (a b : Lane F) : Lane F :=
  let s := signbit F a ^^ signbit F b
  if isNaN F a then quiet F a
  else if isNaN F b then quiet F b
  else if isInf F a then (if isZero F b then defaultNaN F else infinity F s)
  else if isInf F b then (if isZero F a then defaultNaN F else infinity F s)
  else roundLane F s (quanta F a * quanta F b) (2 ^ quantumExp F)

/-- `fdiv_F(a, b)` of R107: 0/0 and ∞/∞ are the default NaN (R106), x/±0 is ±∞, with no guard against a zero divisor. -/
def fdiv (F : Fmt) (a b : Lane F) : Lane F :=
  let s := signbit F a ^^ signbit F b
  if isNaN F a then quiet F a
  else if isNaN F b then quiet F b
  else if isInf F a then (if isInf F b then defaultNaN F else infinity F s)
  else if isInf F b then zero F s
  else if isZero F b then (if isZero F a then defaultNaN F else infinity F s)
  else roundLane F s (quanta F a * 2 ^ quantumExp F) (quanta F b)

/-- `fsqrt_F(a)` of R107. The root of `q` quanta is `sqrt (q * 2 ^ quantumExp)` quanta; a root that is no integer number
of quanta lies strictly between two neighbours, and half a quantum stands for it in the rounding (it is far above the last
place of a subnormal, so no tie is made or lost). -/
def fsqrt (F : Fmt) (a : Lane F) : Lane F :=
  if isNaN F a then quiet F a
  else if isZero F a then a
  else if signbit F a then defaultNaN F
  else if isInf F a then a
  else
    let n := quanta F a * 2 ^ quantumExp F
    let r := natSqrt n
    roundLane F false (2 * r + if r * r = n then 0 else 1) 2

/-- `ffma_F(a, b, c)` of R107: `a · b + c` computed exactly and rounded once. NaN operands are looked at in the order a,
b, c (R105). -/
def ffma (F : Fmt) (a b c : Lane F) : Lane F :=
  let s := signbit F a ^^ signbit F b
  if isNaN F a then quiet F a
  else if isNaN F b then quiet F b
  else if isNaN F c then quiet F c
  else if (isInf F a && isZero F b) || (isZero F a && isInf F b) then defaultNaN F
  else if isInf F a || isInf F b then
    if isInf F c && (signbit F c != s) then defaultNaN F else infinity F s
  else if isInf F c then c
  else
    let n := signedQuanta F a * signedQuanta F b + signedQuanta F c * 2 ^ quantumExp F
    if n = 0 then zero F (s && signbit F c)
    else roundLane F (decide (n < 0)) n.natAbs (2 ^ quantumExp F)

/-- A finite lane rounded to an integral value by `r` (which rounds a quotient of naturals); the result keeps the sign,
±∞ and ±0 are unchanged and a NaN is quieted (R107). -/
def rintWith (r : Nat → Nat → Nat) (F : Fmt) (a : Lane F) : Lane F :=
  if isNaN F a then quiet F a
  else if isInf F a || isZero F a then a
  else roundLane F (signbit F a) (r (quanta F a) (2 ^ quantumExp F) * 2 ^ quantumExp F) 1

/-- `rint_even_F(a)` of R107: the nearest integral value, ties to the even one. -/
def rintEven (F : Fmt) (a : Lane F) : Lane F := rintWith roundDivEven F a

/-- `rint_zero_F(a)` of R107: the nearest integral value in the direction of zero. -/
def rintZero (F : Fmt) (a : Lane F) : Lane F := rintWith (· / ·) F a

/-! ### The ordered predicates (R107) -/

/-- The order of the non-NaN patterns: the magnitude with the sign, so that +0 and -0 are equal and ±∞ are the ends. -/
def orderKey (F : Fmt) (x : Lane F) : Int := if signbit F x then -(magnitude F x : Int) else magnitude F x

/-- `feq_F`: false when either operand is a NaN. -/
def feq (F : Fmt) (a b : Lane F) : Bool :=
  !isNaN F a && !isNaN F b && decide (orderKey F a = orderKey F b)

/-- `flt_F`: false when either operand is a NaN. -/
def flt (F : Fmt) (a b : Lane F) : Bool :=
  !isNaN F a && !isNaN F b && decide (orderKey F a < orderKey F b)

/-- `fle_F`: false when either operand is a NaN. -/
def fle (F : Fmt) (a b : Lane F) : Bool :=
  !isNaN F a && !isNaN F b && decide (orderKey F a ≤ orderKey F b)

/-- `Odd_F(q)` of R211: `q` is finite and an odd integer. -/
def isOddIntegral (F : Fmt) (q : Lane F) : Bool :=
  isFinite F q && quanta F q % 2 ^ quantumExp F == 0 && quanta F q / 2 ^ quantumExp F % 2 == 1

end Sys2Proof.Machine
end

