-- ==== Sys2Proof/Machine/Rom.lean ====
section
/-!
DEFINITION. The two read-only memories: the constant ROM, whose contents the spec fixes (R40 to R44), and the layout and
reference contents of the coefficient ROM, a parameter that `State` holds (R45 to R52).
-/

namespace Sys2Proof.Machine

/-! ### The constant ROM (R41 to R44) -/

/-- A pattern of R44, given per format. -/
def pattern (F : Fmt) (p32 p64 : Nat) : Lane F :=
  BitVec.ofNat F.width (match F with | .f32 => p32 | .f64 => p64)

/-- `CROM_F[n]` of R44: entry `n` of the constant ROM, for `n` in 0..22 (no rule reads another). It is hard-wired and no
field of the state (log entry 6). -/
def constEntry (F : Fmt) (n : Nat) : Lanes F :=
  match n with
  | 0 => Lanes.all (pattern F 0x00000000 0x0000000000000000)  -- Zero
  | 1 => Lanes.all (pattern F 0x3F800000 0x3FF0000000000000)  -- One
  | 2 => Lanes.all (pattern F 0xBF800000 0xBFF0000000000000)  -- NegOne
  | 3 => Lanes.all (pattern F 0x40490FDB 0x400921FB54442D18)  -- Pi
  | 4 => Lanes.all (pattern F 0x3FC90FDB 0x3FF921FB54442D18)  -- HalfPi
  | 5 => Lanes.all (pattern F 0x3F490FDB 0x3FE921FB54442D18)  -- QuarterPi
  | 6 => Lanes.all (pattern F 0x40C90FDB 0x401921FB54442D18)  -- TwoPi
  | 7 => Lanes.all (pattern F 0x3EA2F983 0x3FD45F306DC9C883)  -- OneOverPi
  | 8 => Lanes.all (pattern F 0x3E22F983 0x3FC45F306DC9C883)  -- OneOverTwoPi
  | 9 => Lanes.all (pattern F 0x4016CBE4 0x4002D97C7F3321D2)  -- ThreeQuarterPi
  | 10 => Lanes.all (pattern F 0x80000000 0x8000000000000000)  -- SignMask
  | 11 => Lanes.all (pattern F 0x7FFFFFFF 0x7FFFFFFFFFFFFFFF)  -- SignClear
  | 12 => Lanes.all (pattern F 0xFFFFFFFF 0xFFFFFFFFFFFFFFFF)  -- AllBitsSet
  | 13 => ⟨pattern F 0xFFFFFFFF 0xFFFFFFFFFFFFFFFF, 0, 0, 0⟩  -- MaskX
  | 14 => ⟨0, pattern F 0xFFFFFFFF 0xFFFFFFFFFFFFFFFF, 0, 0⟩  -- MaskY
  | 15 => ⟨0, 0, pattern F 0xFFFFFFFF 0xFFFFFFFFFFFFFFFF, 0⟩  -- MaskZ
  | 16 => ⟨0, 0, 0, pattern F 0xFFFFFFFF 0xFFFFFFFFFFFFFFFF⟩  -- MaskW
  | 17 => ⟨pattern F 0x3F800000 0x3FF0000000000000, 0, 0, 0⟩  -- UnitX
  | 18 => ⟨0, pattern F 0x3F800000 0x3FF0000000000000, 0, 0⟩  -- UnitY
  | 19 => ⟨0, 0, pattern F 0x3F800000 0x3FF0000000000000, 0⟩  -- UnitZ
  | 20 => ⟨0, 0, 0, pattern F 0x3F800000 0x3FF0000000000000⟩  -- UnitW
  | 21 => Lanes.all (pattern F 0x34000000 0x3CB0000000000000)  -- TanEps
  | 22 => Lanes.all (pattern F 0x80000000 0x8000000000000000)  -- NegZero
  | _ => Lanes.all 0

/-- `Const(F, n)` of R43: the lane value of a broadcast entry. -/
def constLane (F : Fmt) (n : Nat) : Lane F := (constEntry F n).l0

/-- Entry 0, +0. -/
def cZero (F : Fmt) : Lane F := constLane F 0
/-- Entry 1, +1. -/
def cOne (F : Fmt) : Lane F := constLane F 1
/-- Entry 2, -1. -/
def cNegOne (F : Fmt) : Lane F := constLane F 2
/-- Entry 3, π. -/
def cPi (F : Fmt) : Lane F := constLane F 3
/-- Entry 4, π/2. -/
def cHalfPi (F : Fmt) : Lane F := constLane F 4
/-- Entry 5, π/4. -/
def cQuarterPi (F : Fmt) : Lane F := constLane F 5
/-- Entry 6, 2π. -/
def cTwoPi (F : Fmt) : Lane F := constLane F 6
/-- Entry 7, 1/π. -/
def cOneOverPi (F : Fmt) : Lane F := constLane F 7
/-- Entry 8, 1/(2π). -/
def cOneOverTwoPi (F : Fmt) : Lane F := constLane F 8
/-- Entry 9, 3π/4. -/
def cThreeQuarterPi (F : Fmt) : Lane F := constLane F 9
/-- Entry 10, the sign bit only. -/
def cSignMask (F : Fmt) : Lane F := constLane F 10
/-- Entry 11, every bit but the sign. -/
def cSignClear (F : Fmt) : Lane F := constLane F 11
/-- Entry 12, `ONES_F`. -/
def cAllBitsSet (F : Fmt) : Lane F := constLane F 12
/-- Entry 21, the small-angle threshold of TAN. -/
def cTanEps (F : Fmt) : Lane F := constLane F 21
/-- Entry 22, -0. -/
def cNegZero (F : Fmt) : Lane F := constLane F 22

/-! ### The coefficient ROM (R45 to R50) -/

/-- The nine tables of R47. -/
inductive TableId where
  | sinP
  | sinA
  | cosP
  | cosA
  | tanNP
  | tanDP
  | tanA
  | atanP
  | atanA
deriving DecidableEq, Repr

/-- One table of R45: its present bit and its coefficients, `k = 0` first (R46). -/
structure CoefTable (F : Fmt) where
  present : Bool
  coefs : List (Lane F)
deriving DecidableEq, Repr

/-- `KROM_F` of R45: nine tables. -/
structure CoefRom (F : Fmt) where
  sinP : CoefTable F
  sinA : CoefTable F
  cosP : CoefTable F
  cosA : CoefTable F
  tanNP : CoefTable F
  tanDP : CoefTable F
  tanA : CoefTable F
  atanP : CoefTable F
  atanA : CoefTable F
deriving DecidableEq, Repr

/-- `n(F, t)` of R47: the term count, the same in both formats. -/
def termCount : TableId → Nat
  | .sinP => 4
  | .sinA => 3
  | .cosP => 4
  | .cosA => 3
  | .tanNP => 2
  | .tanDP => 2
  | .tanA => 3
  | .atanP => 8
  | .atanA => 4

/-- Whether R47 and R48 require the table to be present. -/
def tableRequired : TableId → Bool
  | .sinP => true
  | .sinA => false
  | .cosP => true
  | .cosA => false
  | .tanNP => true
  | .tanDP => true
  | .tanA => false
  | .atanP => true
  | .atanA => false

/-- The table of a given id. -/
def tableOf {F : Fmt} (r : CoefRom F) : TableId → CoefTable F
  | .sinP => r.sinP
  | .sinA => r.sinA
  | .cosP => r.cosP
  | .cosA => r.cosA
  | .tanNP => r.tanNP
  | .tanDP => r.tanDP
  | .tanA => r.tanA
  | .atanP => r.atanP
  | .atanA => r.atanA

/-- The table number `t` of R47. -/
def tableOfNumber {F : Fmt} (r : CoefRom F) : Nat → Option (CoefTable F)
  | 0 => some r.sinP
  | 1 => some r.sinA
  | 2 => some r.cosP
  | 3 => some r.cosA
  | 4 => some r.tanNP
  | 5 => some r.tanDP
  | 6 => some r.tanA
  | 7 => some r.atanP
  | 8 => some r.atanA
  | _ => none

/-- `present(F, t)` of R45. -/
def tablePresent {F : Fmt} (r : CoefRom F) (t : TableId) : Bool := (tableOf r t).present

/-- `Coef(F, t, k)` of R45 and R46. -/
def coef {F : Fmt} (r : CoefRom F) (t : TableId) (k : Nat) : Lane F := ((tableOf r t).coefs)[k]?.getD 0

/-- A lane of a row (R49): +0 where the table is absent or has no such coefficient. -/
def tableLane {F : Fmt} (t : CoefTable F) (k : Nat) : Lane F :=
  if t.present then (t.coefs)[k]?.getD 0 else 0

/-- `KROM_F[row]` of R49: coefficient `k` of table `t` is in row `2t + k div 4`, lane `k mod 4`. -/
def coefRow {F : Fmt} (r : CoefRom F) (row : Nat) : Lanes F :=
  match tableOfNumber r (row / 2) with
  | some t =>
    let k := 4 * (row % 2)
    ⟨tableLane t k, tableLane t (k + 1), tableLane t (k + 2), tableLane t (k + 3)⟩
  | none => Lanes.all 0

/-- One table has its term count (R47) and, where it is required, its present bit (R48). -/
def tableWf {F : Fmt} (r : CoefRom F) (t : TableId) : Bool :=
  (tableOf r t).coefs.length == termCount t && (tablePresent r t || !tableRequired t)

/-- What R50 allows `COEF_ROM` to be. -/
def coefRomWf {F : Fmt} (r : CoefRom F) : Bool :=
  tableWf r .sinP && tableWf r .sinA && tableWf r .cosP && tableWf r .cosA && tableWf r .tanNP && tableWf r .tanDP
    && tableWf r .tanA && tableWf r .atanP && tableWf r .atanA

/-- `REF_ROM`, format F32 (R51). -/
def refRom32 : CoefRom .f32 :=
  { sinP := ⟨true, [0xBE2AAAA4, 0x3C088735, 0xB94FAFFA, 0x362E7C9A]⟩
    sinA := ⟨true, [0xBE2AA815, 0x3C083097, 0xB941E792]⟩
    cosP := ⟨true, [0xBEFFFFE9, 0x3D2AA7DC, 0xBAB59CC7, 0x37C29191]⟩
    cosA := ⟨true, [0xBEFFF790, 0x3D2A0350, 0xBAA73722]⟩
    tanNP := ⟨true, [0xBDE38E39, 0x3A8AB356]⟩
    tanDP := ⟨true, [0xBEE38E39, 0x3C820821]⟩
    tanA := ⟨true, [0x401E3015, 0xBE425049, 0x401DE9E6]⟩
    atanP := ⟨true, [0xBEAAAA36, 0x3E4CB3A0, 0xBE1143AF, 0x3DD88DDC, 0xBD96DEC3, 0x3D286F68, 0xBC77EE7B, 0x3B2BD9FD]⟩
    atanA := ⟨true, [0xBEA9D2A7, 0x3E3CEB34, 0xBDB93E2B, 0x3CBCE8EA]⟩ }

/-- `REF_ROM`, format F64 (R52). -/
def refRom64 : CoefRom .f64 :=
  { sinP := ⟨true, [0xBFC5555487D0DD52, 0x3F8110E6A5F60FCA, 0xBF29F5FF4AB40AA3, 0x3EC5CF933D348E66]⟩
    sinA := ⟨true, [0xBFC55502A7DF7142, 0x3F810612E83B2FBC, 0xBF283CF24D0B28B5]⟩
    cosP := ⟨true, [0xBFDFFFFD2900C90E, 0x3FA554FB80472CB4, 0xBF56B398DAC72F25, 0x3EF8523220945104]⟩
    cosA := ⟨true, [0xBFDFFEF20403D48F, 0x3FA5406A0D463403, 0xBF54E6E442ACD9E7]⟩
    tanNP := ⟨true, [0xBFBC71C71C71C71C, 0x3F51566ABC011567]⟩
    tanDP := ⟨true, [0xBFDC71C71C71C71C, 0x3F90410410410410]⟩
    tanA := ⟨true, [0x4003C6029D778F47, 0xBFC84A092DF85ED1, 0x4003BD3CC9BE45DE]⟩
    atanP := ⟨true, [0xBFD55546CF410029, 0x3FC996740304F16E, 0xBFC22875DE1B0280, 0x3FBB11BB7D998EE5,
      0xBFB2DBD854573DDB, 0x3FA50DECF7A77C58, 0xBF8EFDCF6712AAEC, 0x3F657B3F961E08C0]⟩
    atanA := ⟨true, [0xBFD53A54EB54B288, 0x3FC79D66836BCFE3, 0xBFB727C55453439F, 0x3F979D1D44A698F7]⟩ }

end Sys2Proof.Machine
end

