-- ==== Sys2Proof/Machine/Flags.lean ====
section
/-!
DEFINITION. The MSTU has no flags and no condition codes (R27). What decides things instead: predicates turned into lane
masks and the bitwise select (R9, R107, R140), and the two predicates on `CAP` that choose the datapath (R100).
-/

namespace Sys2Proof.Machine

/-- `mask_F(b)` of R107: `ONES_F` if `b`, otherwise 0. -/
def mask (F : Fmt) (b : Bool) : Lane F := if b then BitVec.allOnes F.width else 0

/-- `sel(m, a, b)` of R107: `(a AND m) OR (b AND NOT m)`, bit by bit. -/
def sel (F : Fmt) (m a b : Lane F) : Lane F := (a &&& m) ||| (b &&& ~~~m)

/-- `CAP.B` (R21). -/
def capB (cap : BitVec 3) : Bool := cap.getLsbD 0

/-- `CAP.E` (R21): it changes no result (R101). -/
def capE (cap : BitVec 3) : Bool := cap.getLsbD 1

/-- `CAP.W` (R21). -/
def capW (cap : BitVec 3) : Bool := cap.getLsbD 2

/-- `fast(F)` of R100. -/
def fast (F : Fmt) (cap : BitVec 3) : Bool :=
  match F with
  | .f32 => capB cap
  | .f64 => capW cap

/-- `fused(F)` of R100. -/
def fused (F : Fmt) (cap : BitVec 3) : Bool := fast F cap && capW cap

end Sys2Proof.Machine
end

