-- ==== Sys2Proof/Syntax.lean ====
section
/-!
DEFINITION. The commands of the MSTU: one constructor per row of spec/opcode_table.json (R79), with the fields of the
command word that the row leaves free, and the names of the reasons for which a word is no command (R261).
-/

namespace Sys2Proof

/-- A command of R79. `fmt` is FMT (R72), `apx` is APX (R73), `sb` is SB (R76) and `idx` is IDX (R74). -/
inductive Instr where
  /-- ADD (R110). -/
  | add (fmt : Fmt) (sb : Bool)
  /-- SUB (R111). -/
  | sub (fmt : Fmt) (sb : Bool)
  /-- MUL (R112). -/
  | mul (fmt : Fmt) (sb : Bool)
  /-- DIV (R113). -/
  | div (fmt : Fmt) (sb : Bool)
  /-- SQR (R114). -/
  | sqr (fmt : Fmt)
  /-- SQRT (R115). -/
  | sqrt (fmt : Fmt)
  /-- MIN (R116). -/
  | min (fmt : Fmt) (sb : Bool)
  /-- MAX (R117). -/
  | max (fmt : Fmt) (sb : Bool)
  /-- ABS (R118). -/
  | abs (fmt : Fmt)
  /-- NEG (R119). -/
  | neg (fmt : Fmt)
  /-- ROUND (R120). -/
  | round (fmt : Fmt)
  /-- TRUNC (R121). -/
  | trunc (fmt : Fmt)
  /-- REM (R122). -/
  | rem (fmt : Fmt) (sb : Bool)
  /-- CLAMP (R123). -/
  | clamp (fmt : Fmt) (sb : Bool)
  /-- RCP (R124). -/
  | rcp (fmt : Fmt) (apx : Bool)
  /-- RSQRT (R125). -/
  | rsqrt (fmt : Fmt) (apx : Bool)
  /-- CMPEQ (R141). -/
  | cmpeq (fmt : Fmt) (sb : Bool)
  /-- CMPNE (R142). -/
  | cmpne (fmt : Fmt) (sb : Bool)
  /-- CMPLT (R143). -/
  | cmplt (fmt : Fmt) (sb : Bool)
  /-- CMPLE (R144). -/
  | cmple (fmt : Fmt) (sb : Bool)
  /-- CMPGT (R145). -/
  | cmpgt (fmt : Fmt) (sb : Bool)
  /-- CMPGE (R146). -/
  | cmpge (fmt : Fmt) (sb : Bool)
  /-- INBOUNDS (R147). -/
  | inbounds (fmt : Fmt) (sb : Bool)
  /-- AND (R148). -/
  | and (fmt : Fmt) (sb : Bool)
  /-- OR (R149). -/
  | or (fmt : Fmt) (sb : Bool)
  /-- ANDNOT (R150). -/
  | andnot (fmt : Fmt) (sb : Bool)
  /-- XOR (R151). -/
  | xor (fmt : Fmt) (sb : Bool)
  /-- SELECT (R152). -/
  | select (fmt : Fmt) (sb : Bool)
  /-- COPYSIGN (R153). -/
  | copysign (fmt : Fmt) (sb : Bool)
  /-- EXTSIGN (R154). -/
  | extsign (fmt : Fmt)
  /-- HADD (R155). -/
  | hadd (fmt : Fmt) (sb : Bool)
  /-- BCAST (R156). -/
  | bcast (fmt : Fmt) (idx : BitVec 7)
  /-- MOD2PI (R173). -/
  | mod2pi (fmt : Fmt)
  /-- FOLD (R175). -/
  | fold (fmt : Fmt)
  /-- SIN (R195). -/
  | sin (fmt : Fmt) (apx : Bool)
  /-- COS (R196). -/
  | cos (fmt : Fmt) (apx : Bool)
  /-- SINCOS (R197). -/
  | sincos (fmt : Fmt) (apx : Bool)
  /-- TAN (R215). -/
  | tan (fmt : Fmt)
  /-- TANAPPROX (R216). -/
  | tanapprox (fmt : Fmt)
  /-- ATAN (R233). -/
  | atan (fmt : Fmt) (apx : Bool)
  /-- ATAN2 (R237). -/
  | atan2 (fmt : Fmt) (apx sb : Bool)
  /-- LDCONST (R250). -/
  | ldconst (fmt : Fmt) (idx : BitVec 7)
  /-- LDCOEF (R251). -/
  | ldcoef (fmt : Fmt) (idx : BitVec 7)
  /-- RDCAP (R252). -/
  | rdcap (fmt : Fmt)
  /-- RDSTAT (R253). -/
  | rdstat (fmt : Fmt)
deriving DecidableEq, Repr

/-- Why a word is no command (R261). They all have the same response (R262). -/
inductive DecodeError where
  /-- OPC is 0x00 or 0x2D to 0x3F (R80). -/
  | reservedOpcode
  /-- RSV, bits 31:16, is not 0 (R77). -/
  | reservedBits
  /-- APX = 1 on an opcode that has no approximate tier (R73). -/
  | apxNotAllowed
  /-- SB = 1 on an opcode that reads no B (R76). -/
  | sbNotAllowed
  /-- IDX is beyond the opcode's limit (R74). -/
  | idxOutOfRange
deriving DecidableEq, Repr

end Sys2Proof
end

