-- ==== Sys2Proof/WellFormed.lean ====
section
/-!
DEFINITION. Which commands are well formed: the limits of R74 on IDX, the one condition of R78 that the shape of `Instr`
does not carry by itself.
-/

namespace Sys2Proof

/-- The largest source lane of BCAST (R74). -/
def laneLimit : Nat := 3

/-- The largest entry number of LDCONST (R74). -/
def constLimit : Nat := 22

/-- The largest row number of LDCOEF (R74). -/
def rowLimit : Nat := 17

/-- IDX is within the limit of R74. -/
def Instr.wellFormed : Instr → Bool
  | .bcast _ idx => idx.toNat ≤ laneLimit
  | .ldconst _ idx => idx.toNat ≤ constLimit
  | .ldcoef _ idx => idx.toNat ≤ rowLimit
  | .add _ _ | .sub _ _ | .mul _ _ | .div _ _ | .sqr _ | .sqrt _ | .min _ _ | .max _ _ | .abs _ | .neg _ | .round _
  | .trunc _ | .rem _ _ | .clamp _ _ | .rcp _ _ | .rsqrt _ _ | .cmpeq _ _ | .cmpne _ _ | .cmplt _ _ | .cmple _ _
  | .cmpgt _ _ | .cmpge _ _ | .inbounds _ _ | .and _ _ | .or _ _ | .andnot _ _ | .xor _ _ | .select _ _
  | .copysign _ _ | .extsign _ | .hadd _ _ | .mod2pi _ | .fold _ | .sin _ _ | .cos _ _ | .sincos _ _ | .tan _
  | .tanapprox _ | .atan _ _ | .atan2 _ _ _ | .rdcap _ | .rdstat _ => true

end Sys2Proof
end

