-- ==== Sys2Proof/Decode.lean ====
section
/-!
DEFINITION. The decoder of the 32-bit command word (R70, R78 to R81) and the encoder beside it, each written from the
spec's field table and opcode map. A word that is no command is rejected with the name of one reason (R261, R262).
-/

namespace Sys2Proof

/-- The fields of a command word below RSV (R70). -/
structure WordFields where
  fmt : Fmt
  apx : Bool
  sb : Bool
  idx : BitVec 7
deriving DecidableEq, Repr

/-- `FMT = cmd[6]` (R70, R72). -/
def fmtOfBit (b : Bool) : Fmt := if b then .f64 else .f32

/-- The bit of a format (R72). -/
def bitOfFmt : Fmt → Bool
  | .f32 => false
  | .f64 => true

/-- `OPC = cmd[5:0]` (R70). -/
def opcodeOf (w : Word) : BitVec 6 := w.extractLsb' 0 6

/-- `RSV = cmd[31:16]` (R70). -/
def reservedOf (w : Word) : BitVec 16 := w.extractLsb' 16 16

/-- The fields FMT, APX, SB and IDX of a command word (R70, R81). -/
def fieldsOf (w : Word) : WordFields :=
  { fmt := fmtOfBit (w.getLsbD 6), apx := w.getLsbD 7, sb := w.getLsbD 8, idx := w.extractLsb' 9 7 }

/-- A command with neither APX, SB nor IDX: the none and unary classes outside the APX set (R73 to R76). -/
def plain (mk : Fmt → Instr) (f : WordFields) : Except DecodeError Instr :=
  if f.apx then .error .apxNotAllowed
  else if f.sb then .error .sbNotAllowed
  else if f.idx = 0 then .ok (mk f.fmt) else .error .idxOutOfRange

/-- A binary or ternary command outside the APX set: SB is allowed (R73, R76). -/
def plainBinary (mk : Fmt → Bool → Instr) (f : WordFields) : Except DecodeError Instr :=
  if f.apx then .error .apxNotAllowed
  else if f.idx = 0 then .ok (mk f.fmt f.sb) else .error .idxOutOfRange

/-- A unary command of the APX set (R73, R76). -/
def tieredUnary (mk : Fmt → Bool → Instr) (f : WordFields) : Except DecodeError Instr :=
  if f.sb then .error .sbNotAllowed
  else if f.idx = 0 then .ok (mk f.fmt f.apx) else .error .idxOutOfRange

/-- A binary command of the APX set: APX and SB are allowed (R73, R76). -/
def tieredBinary (mk : Fmt → Bool → Bool → Instr) (f : WordFields) : Except DecodeError Instr :=
  if f.idx = 0 then .ok (mk f.fmt f.apx f.sb) else .error .idxOutOfRange

/-- A command with an index of at most `limit` (R74). -/
def indexed (mk : Fmt → BitVec 7 → Instr) (limit : Nat) (f : WordFields) : Except DecodeError Instr :=
  if f.apx then .error .apxNotAllowed
  else if f.sb then .error .sbNotAllowed
  else if f.idx.toNat ≤ limit then .ok (mk f.fmt f.idx) else .error .idxOutOfRange

/-- The opcode map of R79. -/
def decodeOpcode (opc : Nat) (f : WordFields) : Except DecodeError Instr :=
  match opc with
  | 0x01 => plainBinary .add f
  | 0x02 => plainBinary .sub f
  | 0x03 => plainBinary .mul f
  | 0x04 => plainBinary .div f
  | 0x05 => plain .sqr f
  | 0x06 => plain .sqrt f
  | 0x07 => plainBinary .min f
  | 0x08 => plainBinary .max f
  | 0x09 => plain .abs f
  | 0x0A => plain .neg f
  | 0x0B => plain .round f
  | 0x0C => plain .trunc f
  | 0x0D => plainBinary .rem f
  | 0x0E => plainBinary .clamp f
  | 0x0F => tieredUnary .rcp f
  | 0x10 => tieredUnary .rsqrt f
  | 0x11 => plainBinary .cmpeq f
  | 0x12 => plainBinary .cmpne f
  | 0x13 => plainBinary .cmplt f
  | 0x14 => plainBinary .cmple f
  | 0x15 => plainBinary .cmpgt f
  | 0x16 => plainBinary .cmpge f
  | 0x17 => plainBinary .inbounds f
  | 0x18 => plainBinary .and f
  | 0x19 => plainBinary .or f
  | 0x1A => plainBinary .andnot f
  | 0x1B => plainBinary .xor f
  | 0x1C => plainBinary .select f
  | 0x1D => plainBinary .copysign f
  | 0x1E => plain .extsign f
  | 0x1F => plainBinary .hadd f
  | 0x20 => indexed .bcast laneLimit f
  | 0x21 => plain .mod2pi f
  | 0x22 => plain .fold f
  | 0x23 => tieredUnary .sin f
  | 0x24 => tieredUnary .cos f
  | 0x25 => tieredUnary .sincos f
  | 0x26 => tieredUnary (fun fmt apx => if apx then .tanapprox fmt else .tan fmt) f
  | 0x27 => tieredUnary .atan f
  | 0x28 => tieredBinary .atan2 f
  | 0x29 => indexed .ldconst constLimit f
  | 0x2A => indexed .ldcoef rowLimit f
  | 0x2B => plain .rdcap f
  | 0x2C => plain .rdstat f
  | _ => .error .reservedOpcode

/-- The decoder: total on the 2 ^ 32 words, and a word decodes exactly when R78 calls it legal. -/
def decode (w : Word) : Except DecodeError Instr :=
  if reservedOf w = 0 then decodeOpcode (opcodeOf w).toNat (fieldsOf w) else .error .reservedBits

/-- The word of R70 with the given fields and RSV = 0 (R83: `OPC | FMT<<6 | APX<<7 | SB<<8 | IDX<<9`). -/
def commandWord (opc : BitVec 6) (fmt : Fmt) (apx sb : Bool) (idx : BitVec 7) : Word :=
  0#16 ++ (idx ++ (BitVec.ofBool sb ++ (BitVec.ofBool apx ++ (BitVec.ofBool (bitOfFmt fmt) ++ opc))))

/-- The encoder: the word of a command, from the opcode map of R79. -/
def encode : Instr → Word
  | .add fmt sb => commandWord 0x01 fmt false sb 0
  | .sub fmt sb => commandWord 0x02 fmt false sb 0
  | .mul fmt sb => commandWord 0x03 fmt false sb 0
  | .div fmt sb => commandWord 0x04 fmt false sb 0
  | .sqr fmt => commandWord 0x05 fmt false false 0
  | .sqrt fmt => commandWord 0x06 fmt false false 0
  | .min fmt sb => commandWord 0x07 fmt false sb 0
  | .max fmt sb => commandWord 0x08 fmt false sb 0
  | .abs fmt => commandWord 0x09 fmt false false 0
  | .neg fmt => commandWord 0x0A fmt false false 0
  | .round fmt => commandWord 0x0B fmt false false 0
  | .trunc fmt => commandWord 0x0C fmt false false 0
  | .rem fmt sb => commandWord 0x0D fmt false sb 0
  | .clamp fmt sb => commandWord 0x0E fmt false sb 0
  | .rcp fmt apx => commandWord 0x0F fmt apx false 0
  | .rsqrt fmt apx => commandWord 0x10 fmt apx false 0
  | .cmpeq fmt sb => commandWord 0x11 fmt false sb 0
  | .cmpne fmt sb => commandWord 0x12 fmt false sb 0
  | .cmplt fmt sb => commandWord 0x13 fmt false sb 0
  | .cmple fmt sb => commandWord 0x14 fmt false sb 0
  | .cmpgt fmt sb => commandWord 0x15 fmt false sb 0
  | .cmpge fmt sb => commandWord 0x16 fmt false sb 0
  | .inbounds fmt sb => commandWord 0x17 fmt false sb 0
  | .and fmt sb => commandWord 0x18 fmt false sb 0
  | .or fmt sb => commandWord 0x19 fmt false sb 0
  | .andnot fmt sb => commandWord 0x1A fmt false sb 0
  | .xor fmt sb => commandWord 0x1B fmt false sb 0
  | .select fmt sb => commandWord 0x1C fmt false sb 0
  | .copysign fmt sb => commandWord 0x1D fmt false sb 0
  | .extsign fmt => commandWord 0x1E fmt false false 0
  | .hadd fmt sb => commandWord 0x1F fmt false sb 0
  | .bcast fmt idx => commandWord 0x20 fmt false false idx
  | .mod2pi fmt => commandWord 0x21 fmt false false 0
  | .fold fmt => commandWord 0x22 fmt false false 0
  | .sin fmt apx => commandWord 0x23 fmt apx false 0
  | .cos fmt apx => commandWord 0x24 fmt apx false 0
  | .sincos fmt apx => commandWord 0x25 fmt apx false 0
  | .tan fmt => commandWord 0x26 fmt false false 0
  | .tanapprox fmt => commandWord 0x26 fmt true false 0
  | .atan fmt apx => commandWord 0x27 fmt apx false 0
  | .atan2 fmt apx sb => commandWord 0x28 fmt apx sb 0
  | .ldconst fmt idx => commandWord 0x29 fmt false false idx
  | .ldcoef fmt idx => commandWord 0x2A fmt false false idx
  | .rdcap fmt => commandWord 0x2B fmt false false 0
  | .rdstat fmt => commandWord 0x2C fmt false false 0

/-- The command a word of `nbits` bits (every bit above them 0) decodes to, if any. The command word is one 32-bit value
on a bus of its own and has no byte order (R55), so the number is the word. -/
def decodeTableWord (nbits w : Nat) : Option Instr :=
  let bits := w % 2 ^ nbits
  if bits < 2 ^ 32 then
    match decode (BitVec.ofNat 32 bits) with
    | .ok i => some i
    | .error _ => none
  else none

end Sys2Proof
end

