-- ==== Sys2Proof/Config.lean ====
section
/-!
DEFINITION. The parameters of R7 that no source fixes. Each `opaque` constant below is a free value: nothing in Lean can
evaluate it, so a theorem about the model holds whatever it is. The rules that use one keep the limits the spec sets on it.
-/

namespace Sys2Proof.Config

/-- `RefSin_F` (R7, R193): the platform's native sine, before the limits of R193 and R194 are imposed on it
(`Sys2Proof.Machine.refSin` imposes them). -/
opaque nativeSin (F : Fmt) : Lane F → Lane F

/-- `RefCos_F` (R7, R193): the platform's native cosine, likewise. -/
opaque nativeCos (F : Fmt) : Lane F → Lane F

/-- `RcpEst_F` (R7, R136): the reciprocal estimate of the fast path, before the limits of R136 are imposed on it
(`Sys2Proof.Machine.rcpEst` imposes them). -/
opaque rcpEstimate (F : Fmt) : Lane F → Lane F

/-- `RsqrtEst_F` (R7, R136): the reciprocal-square-root estimate of the fast path, likewise. -/
opaque rsqrtEstimate (F : Fmt) : Lane F → Lane F

/-- `EST_REL_ERR` (R7, R136), numerator of the bound. -/
opaque estRelErrNum : Nat

/-- `EST_REL_ERR` (R7, R136), denominator of the bound, less 1. -/
opaque estRelErrDenPred : Nat

/-- `EST_REL_ERR` (R7, R136), denominator of the bound: at least 1. -/
def estRelErrDen : Nat := estRelErrDenPred + 1

/-- `LAT(op, F, APX, CAP)` less 1 (R7, R298). -/
opaque latencyPred (opc : BitVec 6) (F : Fmt) (apx : Bool) (cap : BitVec 3) : Nat

/-- `LAT(illegal)` less 1 (R298). -/
opaque illegalLatencyPred : Nat

/-- `DEPTH` less 1 (R7, R30). -/
opaque depthPred : Nat

/-- `DEPTH` (R7, R30): at least 1. -/
def depth : Nat := depthPred + 1

/-- What `rsp_code` holds while `rsp_valid` is 0 (R32: unspecified), at the `n`-th time it is left undriven. -/
opaque idleCode (n : Nat) : BitVec 2

/-- What `res0` holds while `rsp_valid` is 0 (R32: unspecified). -/
opaque idleRes0 (n : Nat) : Bus

/-- What `res1` holds while `rsp_valid` is 0 (R32: unspecified). -/
opaque idleRes1 (n : Nat) : Bus

/-- The strap `CAP_IN` (R7) that `State.reset` samples. DESIGN CHOICE (log entry 1): the spec gives it no default, and
011 is the value most of its vectors use. `State.resetWith` takes any value. -/
def capIn : BitVec 3 := 0b011#3

end Sys2Proof.Config
end

