-- ==== Sys2Proof/Machine/State.lean ====
section
/-!
DEFINITION. The state of the MSTU (R20, R32) as plain data, the signals of its command and response channels (R31), the
reasons a step can stop, and the state after reset (R290). The MSTU has no registers, no program counter, no memory, no
flags and no modes (R25 to R27, R254, R270).
-/

namespace Sys2Proof.Machine

/-- A command as the channel carries it (R12, R28): the command word and its three operand vectors. -/
structure Command where
  word : Word
  a : Bus
  b : Bus
  c : Bus
deriving DecidableEq, Repr

/-- An entry of `Q` (R30): an accepted command and the number of rising edges, after the next one, before which its response
may not be presented (what is left of `LAT`, R298). -/
structure Entry where
  cmd : Command
  wait : Nat
deriving DecidableEq, Repr

/-- The input signals of R31 as sampled at one rising edge of `clk`. -/
structure Pins where
  rstN : Bool
  capIn : BitVec 3
  cmdValid : Bool
  cmdWord : Word
  opa : Bus
  opb : Bus
  opc : Bus
  rspReady : Bool
deriving DecidableEq, Repr

/-- What the inputs hold at an edge for which the host gives none (DESIGN CHOICE, log entry 3): no reset, no command, no response taken. -/
def Pins.idle : Pins :=
  { rstN := true, capIn := 0, cmdValid := false, cmdWord := 0, opa := 0, opb := 0, opc := 0, rspReady := false }

/-- The state of the MSTU, with the inputs its host is still to drive. -/
structure State where
  /-- The capability register (R21): B at bit 0, E at bit 1, W at bit 2. -/
  cap : BitVec 3
  /-- The status register (R23): ILL at bit 0, bits 31:1 read 0. -/
  status : BitVec 32
  /-- `KROM_F32` (R45): the parameter `COEF_ROM`, written by nothing. -/
  krom32 : CoefRom .f32
  /-- `KROM_F64` (R45). -/
  krom64 : CoefRom .f64
  /-- The in-flight queue `Q` (R30), oldest first. -/
  q : List Entry
  /-- The output `cmd_ready` (R31, R297). -/
  cmdReady : Bool
  /-- The output `rsp_valid` (R31). -/
  rspValid : Bool
  /-- The output `rsp_code` (R31, R260). -/
  rspCode : BitVec 2
  /-- The output `res0` (R28, R31). -/
  res0 : Bus
  /-- The output `res1` (R28, R31). -/
  res1 : Bus
  /-- The MODEL's own (R31): the input signals at the coming rising edges, the next one first. -/
  inputs : List Pins
  /-- The MODEL's own: how often the response outputs have been left undriven (R32); it numbers the free values. -/
  idleDraws : Nat
deriving DecidableEq, Repr

/-- Why a step stops with a fault: never. Every command is answered, an illegal one too (R260, R261), and the spec uses
neither faults nor stuck states (file 93), so the type is empty. Safe: no case is lost in it. -/
inductive Fault where
deriving DecidableEq, Repr

/-- Why a step is refused. -/
inductive Refusal where
  /-- Raised by an arm of `exec` for an instruction that has no meaning yet; no arm raises it. Safe: the machine stops. -/
  | notModelled (mnemonic : String)
deriving DecidableEq, Repr

/-- What a step answers. -/
abbrev Result := Host.Outcome State Fault Refusal

/-- The coefficient ROM of a format (R45). -/
def State.krom (s : State) (F : Fmt) : CoefRom F :=
  match F with
  | .f32 => s.krom32
  | .f64 => s.krom64

/-- `Sanitise` of R22: each tier needs the ones below it. -/
def sanitise (capIn : BitVec 3) : BitVec 3 :=
  let b := capIn.getLsbD 0
  let e := capIn.getLsbD 1 && b
  let w := capIn.getLsbD 2 && e
  BitVec.ofBool w ++ (BitVec.ofBool e ++ BitVec.ofBool b)

/-- The MSTU right after a reset edge that sampled `capIn` (R32, R290), with a given coefficient ROM. The response outputs
are unspecified there (R32); 0 is the model's choice for them (DESIGN CHOICE, log entry 2). -/
def State.resetWith (capIn : BitVec 3) (k32 : CoefRom .f32) (k64 : CoefRom .f64) : State :=
  { cap := sanitise capIn, status := 0, krom32 := k32, krom64 := k64, q := [], cmdReady := false, rspValid := false,
    rspCode := 0, res0 := 0, res1 := 0, inputs := [], idleDraws := 0 }

/-- The machine right after reset, with the strap of `Config.capIn` and the reference coefficient ROM (R50). -/
def State.reset : State := State.resetWith Config.capIn refRom32 refRom64

end Sys2Proof.Machine
end

