-- ==== Sys2Proof/Machine/Operands.lean ====
section
/-!
DEFINITION. The operand and result vectors: lanes on the 256-bit buses (R28, R55), and the operands of the command that is
answered next, the oldest of `Q`, after the scalar broadcast (R76).
-/

namespace Sys2Proof.Machine

/-- Lane `i` of a bus in format `F` (R28): bits `[w*i + w - 1 : w*i]`. -/
def busLane (F : Fmt) (v : Bus) (i : Nat) : Lane F := v.extractLsb' (F.width * i) F.width

/-- The four lanes of a bus (R28). In F32, bits 255:128 are ignored. -/
def lanesOfBus (F : Fmt) (v : Bus) : Lanes F := ⟨busLane F v 0, busLane F v 1, busLane F v 2, busLane F v 3⟩

/-- A bus holding four lanes, lane 0 in the least significant bits (R28). In F32, bits 255:128 are 0. -/
def busOfLanes {F : Fmt} (v : Lanes F) : Bus := (v.l3 ++ (v.l2 ++ (v.l1 ++ v.l0))).setWidth 256

/-- The command answered next: the oldest of `Q` (R60). With `Q` empty there is none and no step reads this one (log
entry 5). -/
def State.command (s : State) : Command :=
  match s.q with
  | [] => { word := 0, a := 0, b := 0, c := 0 }
  | e :: _ => e.cmd

/-- Scalar broadcast (R76): with SB = 1 every lane is lane 0. -/
def scalarBroadcast {F : Fmt} (sb : Bool) (v : Lanes F) : Lanes F := if sb then Lanes.all v.l0 else v

/-- Operand A, never broadcast (R76). -/
def opA (s : State) (F : Fmt) : Lanes F := lanesOfBus F s.command.a

/-- Operand B after the scalar broadcast (R76). -/
def opB (s : State) (F : Fmt) (sb : Bool) : Lanes F := scalarBroadcast sb (lanesOfBus F s.command.b)

/-- Operand C after the scalar broadcast (R76). -/
def opC (s : State) (F : Fmt) (sb : Bool) : Lanes F := scalarBroadcast sb (lanesOfBus F s.command.c)

end Sys2Proof.Machine
end

