-- ==== Sys2Proof/Machine/Ops.lean ====
section
/-!
DEFINITION. The named operations on the state: presenting a response, the one abnormal event (the illegal command, R261),
reset (R290), and the two handshakes of the command and response channels (R296 to R298).
-/

namespace Sys2Proof.Machine

/-! ### Responses (R12, R260) -/

/-- Response code OK (R260). -/
def codeOk : BitVec 2 := 0b00#2

/-- Response code ILLEGAL (R260). -/
def codeIllegal : BitVec 2 := 0b01#2

/-- Present a response: `rsp_valid` is 1 and the three response outputs hold it until it is taken (R31). -/
def State.respond (s : State) (code : BitVec 2) (r0 r1 : Bus) : State :=
  { s with rspValid := true, rspCode := code, res0 := r0, res1 := r1 }

/-- Answer a legal command of one result vector: code OK, RES1 all zeros (R28, R260). -/
def answer1 (s : State) {F : Fmt} (r0 : Lanes F) : Result :=
  .next (s.respond codeOk (busOfLanes r0) 0)

/-- Answer a legal command of two result vectors (R79: FOLD and SINCOS). -/
def answer2 (s : State) {F : Fmt} (r0 r1 : Lanes F) : Result :=
  .next (s.respond codeOk (busOfLanes r0) (busOfLanes r1))

/-- Answer a unary per-lane command (R75, R133). -/
def answerUnary (s : State) (F : Fmt) (f : Lane F → Lane F) : Result := answer1 s ((opA s F).map f)

/-- Answer a binary per-lane command (R75, R76, R133). -/
def answerBinary (s : State) (F : Fmt) (sb : Bool) (f : Lane F → Lane F → Lane F) : Result :=
  answer1 s (Lanes.map₂ f (opA s F) (opB s F sb))

/-- Answer a ternary per-lane command (R75, R76, R133). -/
def answerTernary (s : State) (F : Fmt) (sb : Bool) (f : Lane F → Lane F → Lane F → Lane F) : Result :=
  answer1 s (Lanes.map₃ f (opA s F) (opB s F sb) (opC s F sb))

/-- The response to an illegal command (R261): code ILLEGAL and zero results, the operands not read. `STATUS.ILL` is set
when the response is delivered, by `takeResponse` (R24). This is the MSTU's only abnormal event; there is no trap entry and
nothing to return from (R267, R268). -/
def respondIllegal (s : State) : State := s.respond codeIllegal 0 0

/-- Answer a command as an illegal one. -/
def answerIllegal (s : State) : Result := .next (respondIllegal s)

/-! ### The channels, at one rising edge (R296 to R298) -/

/-- `STATUS` once the response of code `code` is delivered (R24): an ILLEGAL one sets bit 0, and nothing clears it. -/
def statusAfter (code : BitVec 2) (status : BitVec 32) : BitVec 32 :=
  if code = codeIllegal then status ||| 1#32 else status

/-- Whether the host takes a response at this edge (R296). -/
def responseTaken (p : Pins) (s : State) : Bool := s.rspValid && p.rspReady

/-- Whether a command is accepted at this edge (R296); `cmd_ready` is the output as it was before the edge. -/
def commandAccepted (p : Pins) (s : State) : Bool := p.cmdValid && s.cmdReady

/-- The command on the channel's wires (R31). -/
def commandOfPins (p : Pins) : Command := { word := p.cmdWord, a := p.opa, b := p.opb, c := p.opc }

/-- `LAT` of a command (R298): it depends on the opcode, FMT, APX and `CAP`, never on the operands; an illegal command has
one latency of its own. At least 1. -/
def latencyOf (cap : BitVec 3) (w : Word) : Nat :=
  match decode w with
  | .ok _ => Config.latencyPred (opcodeOf w) (fieldsOf w).fmt (fieldsOf w).apx cap + 1
  | .error _ => Config.illegalLatencyPred + 1

/-- Delivery of the presented response, if the host takes it: its command leaves `Q` (R30) and an ILLEGAL one sets
`STATUS.ILL` (R24). -/
def takeResponse (p : Pins) (s : State) : State :=
  if responseTaken p s then
    { s with status := statusAfter s.rspCode s.status, q := s.q.tail, rspValid := false }
  else s

/-- One more edge has passed for every command in flight (R298). -/
def ageQueue (s : State) : State := { s with q := s.q.map fun e => { e with wait := e.wait - 1 } }

/-- Acceptance of the command on the wires, if there is one and `cmd_ready` was 1 (R296): it joins the end of `Q`. Its
response may be taken `lat` edges later at the earliest, so it may be presented after `lat - 1` further edges (R298; it is
presented as soon as it may be: DEDUCED, log entry 9). -/
def acceptCommand (lat : BitVec 3 → Word → Nat) (p : Pins) (s : State) : State :=
  if commandAccepted p s then
    { s with q := s.q ++ [{ cmd := commandOfPins p, wait := lat s.cap p.cmdWord - 1 }] }
  else s

/-- `cmd_ready` for the next edge (R297): this edge was no reset edge and `Q` has room. -/
def setReady (depth : Nat) (s : State) : State := { s with cmdReady := decide (s.q.length < depth) }

/-- While `rsp_valid` is 0 the response outputs are unspecified (R32): they take fresh free values (log entry 11). -/
def driveIdle (s : State) : State :=
  if s.rspValid then s
  else
    { s with
      rspCode := Config.idleCode s.idleDraws
      res0 := Config.idleRes0 s.idleDraws
      res1 := Config.idleRes1 s.idleDraws
      idleDraws := s.idleDraws + 1 }

/-- A reset edge (R290, R291): `CAP` is loaded from the strap, `STATUS` is cleared, every command in flight is dropped and a
presented response is withdrawn. The ROMs are not touched (R29). -/
def resetEdge (p : Pins) (s : State) : State :=
  driveIdle
    { s with cap := sanitise p.capIn, status := 0, q := [], cmdReady := false, rspValid := false }

/-- The input signals at the coming rising edge. -/
def State.pins (s : State) : Pins := s.inputs.headD Pins.idle

/-- The coming edge's inputs are used up. -/
def popInputs (s : State) : State := { s with inputs := s.inputs.tail }

/-- The handshakes of one rising edge at which `rst_n` is 1: delivery, ageing, acceptance, the next `cmd_ready`, and the
response outputs if no response is left presented. -/
def handshake (depth : Nat) (lat : BitVec 3 → Word → Nat) (p : Pins) (s : State) : State :=
  driveIdle (setReady depth (acceptCommand lat p (ageQueue (takeResponse p s))))

end Sys2Proof.Machine
end

