-- ==== Sys2Proof/Machine/Reference.lean ====
section
/-!
DEFINITION. The functions that R7 leaves open, with the limits the spec puts on them: the platform's sine and cosine
(R193, R194) and the reciprocal estimates (R136). Each takes the free value of `Config` wherever that value keeps the
limits, and the spec's reference choice where it does not, so every function the spec allows is covered and no other is.
-/

namespace Sys2Proof.Machine

/-! ### Fixed-point sine and cosine, the measure of R193 -/

/-- Fraction bits of the fixed-point sine and cosine. -/
def trigBits : Nat := 320

/-- Fraction bits of π/2 in the reduction: the largest finite F64 value is below 2 ^ 1024, so the reduced angle is off by
less than 2 ^ -370. -/
def halfPiBits : Nat := 1400

/-- π/2 with `halfPiBits` fraction bits, rounded down. -/
def halfPiFixed : Nat :=
  0x1921fb54442d18469898cc51701b839a252049c1114cf98e804177d4c76273644a29410f31c6809bbdf2a33679a748636605614dbe4be286e9fc26adadaa3848bc90b6aecc4bcfd8de89885d34c6fdad617feb96de80d6fdbdc70d7f6b5133f4b5d3e4822f8963fcc9250cca3d9c8b67b8400f97142c77e0b31b4906c38aba734d22c7f51fa499ebf06caba47b9475b2c38c5e6ac410aa5773daa520ee12d2cdace186a9c95793009e2e8d811943042

/-- `acc` plus `fuel` further terms of an alternating power series in `r2`; the next term is the last one times `-r2`,
divided by `i * (i + 1)`. -/
def seriesSum (r2 : Int) : Nat → Int → Int → Int → Int
  | 0, _, _, acc => acc
  | fuel + 1, i, term, acc =>
    let next := -(term * r2) / 2 ^ trigBits / (i * (i + 1))
    seriesSum r2 fuel (i + 2) next (acc + next)

/-- Sine and cosine of a finite lane, in units of `2 ^ -trigBits`, off by far less than `2 ^ 20` units: the angle is
reduced by the nearest multiple of π/2 and 40 terms of each series are summed. -/
def sinCosFixed (F : Fmt) (x : Lane F) : Int × Int :=
  let angle : Int := signedQuanta F x * 2 ^ (halfPiBits - quantumExp F)
  let turn := (2 * angle + halfPiFixed) / (2 * halfPiFixed)
  let r := (angle - turn * halfPiFixed) / 2 ^ (halfPiBits - trigBits)
  let r2 := r * r / 2 ^ trigBits
  let sine := seriesSum r2 40 2 r r
  let cosine := seriesSum r2 40 1 (2 ^ trigBits) (2 ^ trigBits)
  match (turn % 4).toNat with
  | 0 => (sine, cosine)
  | 1 => (cosine, -sine)
  | 2 => (-sine, -cosine)
  | _ => (-cosine, sine)

/-- A fixed-point value rounded to the nearest lane. -/
def laneOfFixed (F : Fmt) (v : Int) : Lane F :=
  roundLane F (decide (v < 0)) (v.natAbs * 2 ^ quantumExp F) (2 ^ trigBits)

/-- Constraint 2 of R193 for a lane `y` and an exact value `v`: `y` is finite and less than 1e-6 away. The fixed-point
error is taken off the bound. -/
def withinBound (F : Fmt) (y : Lane F) (v : Int) : Bool :=
  isFinite F y &&
    decide (((signedQuanta F y * 2 ^ trigBits - v * 2 ^ quantumExp F).natAbs + 2 ^ (quantumExp F + 20)) * 10 ^ 6
      < 2 ^ (trigBits + quantumExp F))

/-- `|x| < 2 ^ -30`: there sin(x) rounds to x in both formats. -/
def tinyAngle (F : Fmt) (x : Lane F) : Bool := quanta F x < 2 ^ (quantumExp F - 30)

/-- The reference choice of R193: sin(x) rounded to nearest, for finite x. -/
def nearestSin (F : Fmt) (x : Lane F) : Lane F :=
  if tinyAngle F x then x else laneOfFixed F (sinCosFixed F x).1

/-- The reference choice of R193: cos(x) rounded to nearest, for finite x. -/
def nearestCos (F : Fmt) (x : Lane F) : Lane F := laneOfFixed F (sinCosFixed F x).2

/-- `RefSin_F` of R193 with the special values of R194: any function within the bound of R193 (log entry 8). -/
def refSin (F : Fmt) (x : Lane F) : Lane F :=
  if isNaN F x then quiet F x
  else if isInf F x then defaultNaN F
  else if isZero F x then x
  else if withinBound F (Config.nativeSin F x) (sinCosFixed F x).1 then Config.nativeSin F x
  else nearestSin F x

/-- `RefCos_F` of R193 with the special values of R194: any function within the bound of R193 (log entry 8). -/
def refCos (F : Fmt) (x : Lane F) : Lane F :=
  if isNaN F x then quiet F x
  else if isInf F x then defaultNaN F
  else if isZero F x then cOne F
  else if withinBound F (Config.nativeCos F x) (sinCosFixed F x).2 then Config.nativeCos F x
  else nearestCos F x

/-! ### The estimates of the approximate tier (R136) -/

/-- The exact reciprocal, `fdiv_F(One, a)` of R124. -/
def exactRcp (F : Fmt) (a : Lane F) : Lane F := fdiv F (cOne F) a

/-- The exact reciprocal square root, `fdiv_F(One, fsqrt_F(a))` of R125. -/
def exactRsqrt (F : Fmt) (a : Lane F) : Lane F := fdiv F (cOne F) (fsqrt F a)

/-- Whether `1/a` lies in the range of the normal numbers, for a finite nonzero `a`. -/
def reciprocalNormal (F : Fmt) (a : Lane F) : Bool :=
  decide (2 ^ F.fracBits * quanta F a ≤ 2 ^ (2 * quantumExp F)) &&
    decide (2 ^ (2 * quantumExp F) ≤ quantaOfMagnitude F (infMagnitude F - 1) * quanta F a)

/-- `abs(e - 1/a) ≤ EST_REL_ERR · abs(1/a)` for finite lanes of one sign (R136), on exact integers. -/
def rcpWithin (F : Fmt) (a e : Lane F) : Bool :=
  isFinite F e && signbit F e == signbit F a &&
    decide (((quanta F e * quanta F a : Nat) - (2 ^ (2 * quantumExp F) : Nat) : Int).natAbs * Config.estRelErrDen
      ≤ Config.estRelErrNum * 2 ^ (2 * quantumExp F))

/-- `abs(e - 1/sqrt(a)) ≤ EST_REL_ERR / sqrt(a)` for a finite positive `a` (R136), squared, on exact integers. -/
def rsqrtWithin (F : Fmt) (a e : Lane F) : Bool :=
  isFinite F e && !signbit F e &&
    decide (quanta F e ^ 2 * quanta F a * Config.estRelErrDen ^ 2
      ≤ (Config.estRelErrDen + Config.estRelErrNum) ^ 2 * 2 ^ (3 * quantumExp F)) &&
    decide ((Config.estRelErrDen - Config.estRelErrNum) ^ 2 * 2 ^ (3 * quantumExp F)
      ≤ quanta F e ^ 2 * quanta F a * Config.estRelErrDen ^ 2)

/-- `RcpEst_F` with the limits of R136: fixed at ±0 and ±∞, a NaN for a NaN, within the error bound where 1/a is normal,
and of the right sign elsewhere (log entry 10). -/
def rcpEst (F : Fmt) (a : Lane F) : Lane F :=
  let e := Config.rcpEstimate F a
  if isNaN F a then (if isNaN F e then e else quiet F a)
  else if isInf F a || isZero F a then exactRcp F a
  else if reciprocalNormal F a then (if rcpWithin F a e then e else exactRcp F a)
  else if signbit F e == signbit F a then e else exactRcp F a

/-- `RsqrtEst_F` with the limits of R136: fixed at ±0, ±∞ and below zero, a NaN for a NaN, within the error bound for a
finite positive a (log entry 10). -/
def rsqrtEst (F : Fmt) (a : Lane F) : Lane F :=
  let e := Config.rsqrtEstimate F a
  if isNaN F a then (if isNaN F e then e else quiet F a)
  else if isInf F a || isZero F a || signbit F a then exactRsqrt F a
  else if rsqrtWithin F a e then e else exactRsqrt F a

end Sys2Proof.Machine
end

