-- ==== Sys2Proof/Machine/Arith.lean ====
section
/-!
DEFINITION. The elementwise arithmetic commands, ADD to RSQRT (R110 to R125): for each what it does to one lane and the
meaning of the command.
-/

namespace Sys2Proof.Machine

/-! ### One lane -/

/-- NEG (R119): the sign bit flipped by exclusive-or with SignMask. -/
def negLane (F : Fmt) (a : Lane F) : Lane F := a ^^^ cSignMask F

/-- MIN (R116): a compare and a select; B when the operands are equal or either is a NaN. -/
def minLane (F : Fmt) (a b : Lane F) : Lane F := if flt F a b then a else b

/-- MAX (R117): a compare and a select; B when the operands are equal or either is a NaN. -/
def maxLane (F : Fmt) (a b : Lane F) : Lane F := if flt F b a then a else b

/-- ABS (R118): `MAX(NEG(a), a)`, so that ABS(-0) = -0 and a NaN is unchanged (C7). -/
def absLane (F : Fmt) (a : Lane F) : Lane F := maxLane F (negLane F a) a

/-- REM (R122): the quotient rounded toward zero, three separate roundings. -/
def remLane (F : Fmt) (a b : Lane F) : Lane F :=
  let q := rintZero F (fdiv F a b)
  fsub F a (fmul F q b)

/-- CLAMP (R123): `MAX(MIN(v, hi), lo)`. -/
def clampLane (F : Fmt) (v lo hi : Lane F) : Lane F := maxLane F (minLane F v hi) lo

/-- RCP (R124): the estimate with APX = 1 on the fast path, else the exact quotient. -/
def rcpLane (F : Fmt) (apx : Bool) (cap : BitVec 3) (a : Lane F) : Lane F :=
  if apx && fast F cap then rcpEst F a else exactRcp F a

/-- RSQRT (R125): the estimate with APX = 1 on the fast path, else the root and the quotient, each rounded. -/
def rsqrtLane (F : Fmt) (apx : Bool) (cap : BitVec 3) (a : Lane F) : Lane F :=
  if apx && fast F cap then rsqrtEst F a else exactRsqrt F a

/-! ### The commands -/

/-- ADD (R110). -/
def execAdd (fmt : Fmt) (sb : Bool) (s : State) : Result := answerBinary s fmt sb (fadd fmt)

/-- SUB (R111). -/
def execSub (fmt : Fmt) (sb : Bool) (s : State) : Result := answerBinary s fmt sb (fsub fmt)

/-- MUL (R112). -/
def execMul (fmt : Fmt) (sb : Bool) (s : State) : Result := answerBinary s fmt sb (fmul fmt)

/-- DIV (R113): no guard against a zero divisor. -/
def execDiv (fmt : Fmt) (sb : Bool) (s : State) : Result := answerBinary s fmt sb (fdiv fmt)

/-- SQR (R114). -/
def execSqr (fmt : Fmt) (s : State) : Result := answerUnary s fmt fun a => fmul fmt a a

/-- SQRT (R115). -/
def execSqrt (fmt : Fmt) (s : State) : Result := answerUnary s fmt (fsqrt fmt)

/-- MIN (R116). -/
def execMin (fmt : Fmt) (sb : Bool) (s : State) : Result := answerBinary s fmt sb (minLane fmt)

/-- MAX (R117). -/
def execMax (fmt : Fmt) (sb : Bool) (s : State) : Result := answerBinary s fmt sb (maxLane fmt)

/-- ABS (R118). -/
def execAbs (fmt : Fmt) (s : State) : Result := answerUnary s fmt (absLane fmt)

/-- NEG (R119). -/
def execNeg (fmt : Fmt) (s : State) : Result := answerUnary s fmt (negLane fmt)

/-- ROUND (R120): to nearest, ties to even. -/
def execRound (fmt : Fmt) (s : State) : Result := answerUnary s fmt (rintEven fmt)

/-- TRUNC (R121): toward zero. -/
def execTrunc (fmt : Fmt) (s : State) : Result := answerUnary s fmt (rintZero fmt)

/-- REM (R122). -/
def execRem (fmt : Fmt) (sb : Bool) (s : State) : Result := answerBinary s fmt sb (remLane fmt)

/-- CLAMP (R123): A is v, B is lo, C is hi. -/
def execClamp (fmt : Fmt) (sb : Bool) (s : State) : Result := answerTernary s fmt sb (clampLane fmt)

/-- RCP (R124). -/
def execRcp (fmt : Fmt) (apx : Bool) (s : State) : Result := answerUnary s fmt (rcpLane fmt apx s.cap)

/-- RSQRT (R125). -/
def execRsqrt (fmt : Fmt) (apx : Bool) (s : State) : Result := answerUnary s fmt (rsqrtLane fmt apx s.cap)

end Sys2Proof.Machine
end

