-- ==== Sys2Proof/Machine/Logic.lean ====
section
/-!
DEFINITION. Compares, the bounds test, the bitwise commands, select, sign and the cross-lane commands (R140 to R156).
-/

namespace Sys2Proof.Machine

/-! ### One lane -/

/-- INBOUNDS (R147): true exactly when -bounds ≤ v ≤ bounds. -/
def inboundsLane (F : Fmt) (v bounds : Lane F) : Lane F :=
  mask F (fle F v bounds) &&& mask F (fle F (negLane F bounds) v)

/-- EXTSIGN (R154, C1): the sign bit in place. -/
def extSignLane (F : Fmt) (a : Lane F) : Lane F := a &&& cSignMask F

/-- COPYSIGN (R153, C7): the sign bit of the first operand on the ABS of the second. -/
def copySignLane (F : Fmt) (sign v : Lane F) : Lane F := extSignLane F sign ||| absLane F v

/-- HADD (R155): the sums of adjacent pairs of A, then of B. -/
def haddLanes (F : Fmt) (a b : Lanes F) : Lanes F :=
  ⟨fadd F a.l0 a.l1, fadd F a.l2 a.l3, fadd F b.l0 b.l1, fadd F b.l2 b.l3⟩

/-! ### The commands -/

/-- CMPEQ (R141). -/
def execCmpeq (fmt : Fmt) (sb : Bool) (s : State) : Result := answerBinary s fmt sb fun a b => mask fmt (feq fmt a b)

/-- CMPNE (R142): true for a NaN. -/
def execCmpne (fmt : Fmt) (sb : Bool) (s : State) : Result := answerBinary s fmt sb fun a b => mask fmt (!feq fmt a b)

/-- CMPLT (R143). -/
def execCmplt (fmt : Fmt) (sb : Bool) (s : State) : Result := answerBinary s fmt sb fun a b => mask fmt (flt fmt a b)

/-- CMPLE (R144). -/
def execCmple (fmt : Fmt) (sb : Bool) (s : State) : Result := answerBinary s fmt sb fun a b => mask fmt (fle fmt a b)

/-- CMPGT (R145). -/
def execCmpgt (fmt : Fmt) (sb : Bool) (s : State) : Result := answerBinary s fmt sb fun a b => mask fmt (flt fmt b a)

/-- CMPGE (R146). -/
def execCmpge (fmt : Fmt) (sb : Bool) (s : State) : Result := answerBinary s fmt sb fun a b => mask fmt (fle fmt b a)

/-- INBOUNDS (R147): A is v, B is bounds. -/
def execInbounds (fmt : Fmt) (sb : Bool) (s : State) : Result := answerBinary s fmt sb (inboundsLane fmt)

/-- AND (R148). -/
def execAnd (fmt : Fmt) (sb : Bool) (s : State) : Result := answerBinary s fmt sb fun a b => a &&& b

/-- OR (R149). -/
def execOr (fmt : Fmt) (sb : Bool) (s : State) : Result := answerBinary s fmt sb fun a b => a ||| b

/-- ANDNOT (R150): the complemented operand is A. -/
def execAndnot (fmt : Fmt) (sb : Bool) (s : State) : Result := answerBinary s fmt sb fun a b => ~~~a &&& b

/-- XOR (R151). -/
def execXor (fmt : Fmt) (sb : Bool) (s : State) : Result := answerBinary s fmt sb fun a b => a ^^^ b

/-- SELECT (R152): A is the mask, B is taken where it is ones, C where it is zeros. -/
def execSelect (fmt : Fmt) (sb : Bool) (s : State) : Result := answerTernary s fmt sb (sel fmt)

/-- COPYSIGN (R153): A is the sign, B is v. -/
def execCopysign (fmt : Fmt) (sb : Bool) (s : State) : Result := answerBinary s fmt sb (copySignLane fmt)

/-- EXTSIGN (R154). -/
def execExtsign (fmt : Fmt) (s : State) : Result := answerUnary s fmt (extSignLane fmt)

/-- HADD (R155). -/
def execHadd (fmt : Fmt) (sb : Bool) (s : State) : Result := answer1 s (haddLanes fmt (opA s fmt) (opB s fmt sb))

/-- BCAST (R156): lane IDX of A in every lane; an IDX beyond 3 makes the command illegal (R74; log entry 14). -/
def execBcast (fmt : Fmt) (idx : BitVec 7) (s : State) : Result :=
  match idx.toNat with
  | 0 => answer1 s (Lanes.all (opA s fmt).l0)
  | 1 => answer1 s (Lanes.all (opA s fmt).l1)
  | 2 => answer1 s (Lanes.all (opA s fmt).l2)
  | 3 => answer1 s (Lanes.all (opA s fmt).l3)
  | _ => answerIllegal s

end Sys2Proof.Machine
end

