-- ==== Sys2Proof/Machine/Reduce.lean ====
section
/-!
DEFINITION. The polynomial evaluator, the range reduction and the quadrant fold (R170 to R175), and the commands MOD2PI and
FOLD.
-/

namespace Sys2Proof.Machine

/-- `MulAdd_F(a, b, c)` of R170: one rounding when fused, two otherwise. -/
def mulAdd (F : Fmt) (fu : Bool) (a b c : Lane F) : Lane F :=
  if fu then ffma F a b c else fadd F (fmul F a b) c

/-- The Horner steps of R170 for the coefficients `k - 1` down to 0. -/
def hornerSteps (F : Fmt) (fu : Bool) (r : CoefRom F) (t : TableId) (x : Lane F) : Nat → Lane F → Lane F
  | 0, acc => acc
  | k + 1, acc => hornerSteps F fu r t x k (mulAdd F fu acc x (coef r t k))

/-- `Horner_F(t, s)` of R170, highest coefficient first. -/
def horner (F : Fmt) (fu : Bool) (r : CoefRom F) (t : TableId) (x : Lane F) : Lane F :=
  hornerSteps F fu r t x (termCount t - 1) (coef r t (termCount t - 1))

/-- `Poly1_F(t, s)` of R171: `1 + s · H_t(s)`. -/
def poly1 (F : Fmt) (fu : Bool) (r : CoefRom F) (t : TableId) (x : Lane F) : Lane F :=
  mulAdd F fu (horner F fu r t x) x (cOne F)

/-- `Mod2Pi_F(x)` of R173: four separate roundings. -/
def mod2PiLane (F : Fmt) (x : Lane F) : Lane F :=
  let q := rintEven F (fmul F x (cOneOverTwoPi F))
  fsub F x (fmul F q (cTwoPi F))

/-- `Fold_F(a)` of R175, its seven steps in order: the folded angle and the cosine sign. -/
def foldLane (F : Fmt) (a : Lane F) : Lane F × Lane F :=
  let sgn := a &&& cSignMask F
  let spi := sgn ||| absLane F (cPi F)
  let refl := fsub F spi a
  let absa := a &&& cSignClear F
  let inr := mask F (fle F absa (cHalfPi F))
  (sel F inr a refl, sel F inr (cOne F) (cNegOne F))

/-- MOD2PI (R173). -/
def execMod2pi (fmt : Fmt) (s : State) : Result := answerUnary s fmt (mod2PiLane fmt)

/-- FOLD (R175): RES0 is the folded angle, RES1 the cosine sign. -/
def execFold (fmt : Fmt) (s : State) : Result :=
  answer2 s ((opA s fmt).map fun a => (foldLane fmt a).1) ((opA s fmt).map fun a => (foldLane fmt a).2)

end Sys2Proof.Machine
end

