-- ==== Sys2Proof/Machine/Atan.lean ====
section
/-!
DEFINITION. Arctangent of one and of two arguments (R230 to R239).
-/

namespace Sys2Proof.Machine

/-- `AtanTable(F, apx)` of R230; an absent ATAN_A gives ATAN_P (R231). -/
def atanTable {F : Fmt} (k : CoefRom F) (apx : Bool) : TableId :=
  if apx && tablePresent k .atanA then .atanA else .atanP

/-- `inr` of R232: the mask of |x| ≤ 1. -/
def atanInRange (F : Fmt) (x : Lane F) : Lane F := mask F (fle F (x &&& cSignClear F) (cOne F))

/-- The tri-state sign lane of R232: +1 for x > 1, -1 for x < -1 and for a NaN, +0 for |x| ≤ 1. -/
def atanSign (F : Fmt) (x : Lane F) : Lane F :=
  sel F (atanInRange F x) (cZero F) (sel F (mask F (flt F (cOne F) x)) (cOne F) (cNegOne F))

/-- `Atan_F(x, apx)` of R233. -/
def atanOf (F : Fmt) (fu : Bool) (k : CoefRom F) (apx : Bool) (x : Lane F) : Lane F :=
  let inv := fdiv F (cOne F) x
  let sign := atanSign F x
  let z := sel F (atanInRange F x) x inv
  let s2 := fmul F z z
  let p := fmul F (poly1 F fu k (atanTable k apx) s2) z
  let r1 := fsub F (fmul F sign (cHalfPi F)) p
  sel F (mask F (feq F sign (cZero F))) p r1

/-- Row 6 of R236: `atan(y/x)` and the correction of R238. -/
def atan2General (F : Fmt) (fu : Bool) (k : CoefRom F) (apx : Bool) (y x : Lane F) : Lane F :=
  let t := atanOf F fu k apx (fdiv F y x)
  let adj := sel F (mask F (flt F x (cZero F))) (copySignLane F y (cPi F)) (cNegZero F)
  fadd F t adj

/-- `Atan2_F(y, x, apx)` of R237: row 6 for every lane, then the selects of rows 5 to 1. -/
def atan2Of (F : Fmt) (fu : Bool) (k : CoefRom F) (apx : Bool) (y x : Lane F) : Lane F :=
  let res6 := atan2General F fu k apx y x
  let res5 := sel F (mask F (isInf F y && isFinite F x)) (copySignLane F y (cHalfPi F)) res6
  let v4 := sel F (mask F (!signbit F x)) (copySignLane F y (cQuarterPi F)) (copySignLane F y (cThreeQuarterPi F))
  let res4 := sel F (mask F (isInf F y && isInf F x)) v4 res5
  let res3 := sel F (mask F (feq F x (cZero F) && (flt F y (cZero F) || flt F (cZero F) y)))
    (copySignLane F y (cHalfPi F)) res4
  let res2 := sel F (mask F (feq F y (cZero F) && (flt F x (cZero F) || (feq F x (cZero F) && signbit F x))))
    (copySignLane F y (cPi F)) res3
  sel F (mask F (feq F y (cZero F) && (flt F (cZero F) x || (feq F x (cZero F) && !signbit F x))))
    ((y &&& cSignMask F) ||| cZero F) res2

/-- ATAN of one lane; the fallback runs the same rule unfused, and APX keeps its meaning (R234). -/
def atanLane (F : Fmt) (cap : BitVec 3) (k : CoefRom F) (apx : Bool) (x : Lane F) : Lane F :=
  atanOf F (fused F cap) k apx x

/-- ATAN2 of one lane, likewise (R239). -/
def atan2Lane (F : Fmt) (cap : BitVec 3) (k : CoefRom F) (apx : Bool) (y x : Lane F) : Lane F :=
  atan2Of F (fused F cap) k apx y x

/-- ATAN (R233). -/
def execAtan (fmt : Fmt) (apx : Bool) (s : State) : Result := answerUnary s fmt (atanLane fmt s.cap (s.krom fmt) apx)

/-- ATAN2 (R237): A is y, B is x. -/
def execAtan2 (fmt : Fmt) (apx sb : Bool) (s : State) : Result :=
  answerBinary s fmt sb (atan2Lane fmt s.cap (s.krom fmt) apx)

end Sys2Proof.Machine
end

