-- ==== Sys2Proof/Machine/RomStatus.lean ====
section
/-!
DEFINITION. The ROM reads LDCONST and LDCOEF and the register reads RDCAP and RDSTAT (R250 to R253).
-/

namespace Sys2Proof.Machine

/-- A register read: the register, zero-extended, in lane 0, the other lanes 0 (R252, R253). -/
def registerLanes (F : Fmt) {n : Nat} (v : BitVec n) : Lanes F := ⟨v.setWidth F.width, 0, 0, 0⟩

/-- LDCONST (R250): one whole constant-ROM entry; an IDX beyond 22 makes the command illegal (R74; log entry 14). -/
def execLdconst (fmt : Fmt) (idx : BitVec 7) (s : State) : Result :=
  if idx.toNat ≤ constLimit then answer1 s (constEntry fmt idx.toNat) else answerIllegal s

/-- LDCOEF (R251): one whole coefficient-ROM row; an IDX beyond 17 makes the command illegal (R74; log entry 14). -/
def execLdcoef (fmt : Fmt) (idx : BitVec 7) (s : State) : Result :=
  if idx.toNat ≤ rowLimit then answer1 s (coefRow (s.krom fmt) idx.toNat) else answerIllegal s

/-- RDCAP (R252). -/
def execRdcap (fmt : Fmt) (s : State) : Result := answer1 s (registerLanes fmt s.cap)

/-- RDSTAT (R253): it does not clear `STATUS`. -/
def execRdstat (fmt : Fmt) (s : State) : Result := answer1 s (registerLanes fmt s.status)

end Sys2Proof.Machine
end

