-- ==== Sys2Proof/Machine/SinCos.lean ====
section
/-!
DEFINITION. Sine, cosine and SINCOS (R190 to R197): the fast-path pipeline and the fallback on the platform's functions.
-/

namespace Sys2Proof.Machine

/-- `SinTable(F, apx)` of R191; an absent approximate table gives the precise one (R192). -/
def sinTable {F : Fmt} (r : CoefRom F) (apx : Bool) : TableId :=
  if apx && tablePresent r .sinA then .sinA else .sinP

/-- `CosTable(F, apx)` of R191, chosen on its own. -/
def cosTable {F : Fmt} (r : CoefRom F) (apx : Bool) : TableId :=
  if apx && tablePresent r .cosA then .cosA else .cosP

/-- `SinCosFast_F(x, apx)` of R190: one reduction, one fold, one square, two polynomials. -/
def sinCosFast (F : Fmt) (fu : Bool) (r : CoefRom F) (apx : Bool) (x : Lane F) : Lane F × Lane F :=
  let a := mod2PiLane F x
  let f := (foldLane F a).1
  let cs := (foldLane F a).2
  let s2 := fmul F f f
  (fmul F (poly1 F fu r (sinTable r apx) s2) f, fmul F (poly1 F fu r (cosTable r apx) s2) cs)

/-- The sine of one lane (R195): the pipeline on the fast path, the platform's function on the fallback, where APX is
ignored (R193). -/
def sinLane (F : Fmt) (cap : BitVec 3) (r : CoefRom F) (apx : Bool) (x : Lane F) : Lane F :=
  if fast F cap then (sinCosFast F (fused F cap) r apx x).1 else refSin F x

/-- The cosine of one lane (R196), likewise. -/
def cosLane (F : Fmt) (cap : BitVec 3) (r : CoefRom F) (apx : Bool) (x : Lane F) : Lane F :=
  if fast F cap then (sinCosFast F (fused F cap) r apx x).2 else refCos F x

/-- SIN (R195). -/
def execSin (fmt : Fmt) (apx : Bool) (s : State) : Result := answerUnary s fmt (sinLane fmt s.cap (s.krom fmt) apx)

/-- COS (R196). -/
def execCos (fmt : Fmt) (apx : Bool) (s : State) : Result := answerUnary s fmt (cosLane fmt s.cap (s.krom fmt) apx)

/-- SINCOS (R197): RES0 is the sine, RES1 the cosine, from one pipeline. -/
def execSincos (fmt : Fmt) (apx : Bool) (s : State) : Result :=
  answer2 s ((opA s fmt).map (sinLane fmt s.cap (s.krom fmt) apx)) ((opA s fmt).map (cosLane fmt s.cap (s.krom fmt) apx))

end Sys2Proof.Machine
end

