-- ==== Sys2Proof/Machine/Tan.lean ====
section
/-!
DEFINITION. Tangent, precise and approximate (R210 to R217).
-/

namespace Sys2Proof.Machine

/-- `TanReduce_F(x)` of R210: the quotient by HalfPi rounded to even, and the remainder in two roundings. -/
def tanReduce (F : Fmt) (x : Lane F) : Lane F × Lane F :=
  let q := rintEven F (fdiv F x (cHalfPi F))
  (q, fsub F x (fmul F q (cHalfPi F)))

/-- `TanRational_F(r)` of R212: numerator and denominator. -/
def tanRational (F : Fmt) (fu : Bool) (k : CoefRom F) (r : Lane F) : Lane F × Lane F :=
  let s2 := fmul F r r
  (fmul F r (poly1 F fu k .tanNP s2), poly1 F fu k .tanDP s2)

/-- The small-angle guard of R213 on the pair: (r, 1) where |r| < TanEps. -/
def tanGuard (F : Fmt) (r : Lane F) (nd : Lane F × Lane F) : Lane F × Lane F :=
  let nz := mask F (flt F (r &&& cSignClear F) (cTanEps F))
  (sel F nz r nd.1, sel F nz (cOne F) nd.2)

/-- `Tan_F(x)` of R215. -/
def tanPrecise (F : Fmt) (fu : Bool) (k : CoefRom F) (x : Lane F) : Lane F :=
  let qr := tanReduce F x
  let nd := tanGuard F qr.2 (tanRational F fu k qr.2)
  let odd := mask F (isOddIntegral F qr.1)
  let res := sel F odd (fdiv F (negLane F nd.2) nd.1) (fdiv F nd.1 nd.2)
  let z := mask F (feq F x (cZero F))
  sel F z (cZero F) res

/-- The single ratio of R216 on the fast path. -/
def tanRatio (F : Fmt) (fu : Bool) (k : CoefRom F) (x : Lane F) : Lane F :=
  let a0 := coef k .tanA 0
  let a1 := coef k .tanA 1
  let a2 := coef k .tanA 2
  let q := rintEven F (fmul F x (cOneOverPi F))
  let r := fsub F x (fmul F q (cPi F))
  let s2 := fmul F r r
  let n := fmul F r (mulAdd F fu a1 s2 a0)
  let d := fsub F a2 s2
  fdiv F n d

/-- TAN of one lane (R215); the fallback runs the same rule unfused (R217). -/
def tanLane (F : Fmt) (cap : BitVec 3) (k : CoefRom F) (x : Lane F) : Lane F := tanPrecise F (fused F cap) k x

/-- `TanApprox_F(x)` of R216: its own form only on the fast path and with TAN_A present, else TAN (R214). -/
def tanApproxLane (F : Fmt) (cap : BitVec 3) (k : CoefRom F) (x : Lane F) : Lane F :=
  if fast F cap && tablePresent k .tanA then tanRatio F (fused F cap) k x else tanPrecise F (fused F cap) k x

/-- TAN (R215). -/
def execTan (fmt : Fmt) (s : State) : Result := answerUnary s fmt (tanLane fmt s.cap (s.krom fmt))

/-- TANAPPROX (R216). -/
def execTanapprox (fmt : Fmt) (s : State) : Result := answerUnary s fmt (tanApproxLane fmt s.cap (s.krom fmt))

end Sys2Proof.Machine
end

