-- ==== Sys2Proof/Machine/Dispatch.lean ====
section
/-! DEFINITION. The dispatch (R79): one arm per command, each one call of its meaning. -/

namespace Sys2Proof.Machine

/-- The meaning of a command: the response to the command at the head of `Q`, taken as this one. -/
def exec (i : Instr) (s : State) : Host.Outcome State Fault Refusal :=
  match i with
  | .add fmt sb => Sys2Proof.Machine.execAdd fmt sb s
  | .sub fmt sb => Sys2Proof.Machine.execSub fmt sb s
  | .mul fmt sb => Sys2Proof.Machine.execMul fmt sb s
  | .div fmt sb => Sys2Proof.Machine.execDiv fmt sb s
  | .sqr fmt => Sys2Proof.Machine.execSqr fmt s
  | .sqrt fmt => Sys2Proof.Machine.execSqrt fmt s
  | .min fmt sb => Sys2Proof.Machine.execMin fmt sb s
  | .max fmt sb => Sys2Proof.Machine.execMax fmt sb s
  | .abs fmt => Sys2Proof.Machine.execAbs fmt s
  | .neg fmt => Sys2Proof.Machine.execNeg fmt s
  | .round fmt => Sys2Proof.Machine.execRound fmt s
  | .trunc fmt => Sys2Proof.Machine.execTrunc fmt s
  | .rem fmt sb => Sys2Proof.Machine.execRem fmt sb s
  | .clamp fmt sb => Sys2Proof.Machine.execClamp fmt sb s
  | .rcp fmt apx => Sys2Proof.Machine.execRcp fmt apx s
  | .rsqrt fmt apx => Sys2Proof.Machine.execRsqrt fmt apx s
  | .cmpeq fmt sb => Sys2Proof.Machine.execCmpeq fmt sb s
  | .cmpne fmt sb => Sys2Proof.Machine.execCmpne fmt sb s
  | .cmplt fmt sb => Sys2Proof.Machine.execCmplt fmt sb s
  | .cmple fmt sb => Sys2Proof.Machine.execCmple fmt sb s
  | .cmpgt fmt sb => Sys2Proof.Machine.execCmpgt fmt sb s
  | .cmpge fmt sb => Sys2Proof.Machine.execCmpge fmt sb s
  | .inbounds fmt sb => Sys2Proof.Machine.execInbounds fmt sb s
  | .and fmt sb => Sys2Proof.Machine.execAnd fmt sb s
  | .or fmt sb => Sys2Proof.Machine.execOr fmt sb s
  | .andnot fmt sb => Sys2Proof.Machine.execAndnot fmt sb s
  | .xor fmt sb => Sys2Proof.Machine.execXor fmt sb s
  | .select fmt sb => Sys2Proof.Machine.execSelect fmt sb s
  | .copysign fmt sb => Sys2Proof.Machine.execCopysign fmt sb s
  | .extsign fmt => Sys2Proof.Machine.execExtsign fmt s
  | .hadd fmt sb => Sys2Proof.Machine.execHadd fmt sb s
  | .bcast fmt idx => Sys2Proof.Machine.execBcast fmt idx s
  | .mod2pi fmt => Sys2Proof.Machine.execMod2pi fmt s
  | .fold fmt => Sys2Proof.Machine.execFold fmt s
  | .sin fmt apx => Sys2Proof.Machine.execSin fmt apx s
  | .cos fmt apx => Sys2Proof.Machine.execCos fmt apx s
  | .sincos fmt apx => Sys2Proof.Machine.execSincos fmt apx s
  | .tan fmt => Sys2Proof.Machine.execTan fmt s
  | .tanapprox fmt => Sys2Proof.Machine.execTanapprox fmt s
  | .atan fmt apx => Sys2Proof.Machine.execAtan fmt apx s
  | .atan2 fmt apx sb => Sys2Proof.Machine.execAtan2 fmt apx sb s
  | .ldconst fmt idx => Sys2Proof.Machine.execLdconst fmt idx s
  | .ldcoef fmt idx => Sys2Proof.Machine.execLdcoef fmt idx s
  | .rdcap fmt => Sys2Proof.Machine.execRdcap fmt s
  | .rdstat fmt => Sys2Proof.Machine.execRdstat fmt s

end Sys2Proof.Machine
end

