-- ==== Sys2Proof/Machine/Channel.lean ====
section
/-!
DEFINITION. One rising edge of `clk`: reset, or the handshakes and then the command whose response is due.
-/

namespace Sys2Proof.Machine

/-- The command to run at this edge: the oldest of `Q`, when its wait is over and no response is presented (R298). -/
def dueCommand (s : State) : Option Command :=
  match s.q with
  | [] => none
  | e :: _ => if s.rspValid || e.wait != 0 then none else some e.cmd

/-- Run the oldest command of `Q`: a legal word is its command, an illegal one is answered as illegal (R78, R299). -/
def runCommand (w : Word) (s : State) : Result :=
  match decode w with
  | .ok i => exec i s
  | .error _ => answerIllegal s

/-- The end of an edge: the due command is run, so that its response is presented before the next edge (DEDUCED, log entry
13: a command's result is computed when its response is first presented). -/
def presentDue (s : State) : Result :=
  match dueCommand s with
  | some c => runCommand c.word s
  | none => .next s

/-- One rising edge (R290, R296 to R298), for a queue depth and a latency. -/
def edge (depth : Nat) (lat : BitVec 3 → Word → Nat) (s : State) : Result :=
  let p := s.pins
  let s0 := popInputs s
  if p.rstN then presentDue (handshake depth lat p s0) else .next (resetEdge p s0)

/-- The state with the word `w` as the command that is answered next: at the head of `Q` in place of the command there (its
operands kept), its wait over, no response presented and no reset at the coming edge (log entry 4). -/
def placeCommand (w : Word) (s : State) : State :=
  { s with
    q := { cmd := { s.command with word := w }, wait := 0 } :: s.q.tail
    rspValid := false
    inputs := match s.inputs with
      | [] => []
      | p :: ps => { p with rstN := true } :: ps }

end Sys2Proof.Machine
end

