-- ==== Sys2Proof/Machine/Step.lean ====
section
/-!
DEFINITION. The step: one rising edge of `clk`, with the parameters `DEPTH` and `LAT` (R7); and the state in which the next
step runs a given command word.
-/

namespace Sys2Proof.Machine

/-- One step of the MSTU is one rising edge of `clk`. -/
def step (s : State) : Host.Outcome State Fault Refusal := edge Config.depth latencyOf s

/-- `s` with a command word stored where the next step takes the command it runs: the head of `Q`. -/
def State.withFetchWord (s : State) (nbits w : Nat) : State := placeCommand (BitVec.ofNat 32 (w % 2 ^ nbits)) s

end Sys2Proof.Machine
end

