-- ==== Sys2Proof/Machine/Assembler.lean ====
section
/-!
DEFINITION. The written form of the commands (R83) and the pseudo-instructions (R84). Nothing here is executed by the MSTU:
the assembler's output is the command word, `Sys2Proof.encode`, and a pseudo-instruction is one command, sometimes with an
operand that the host supplies.
-/

namespace Sys2Proof.Machine

/-! ### Assembly syntax (R83) -/

/-- `.S` for F32 and `.D` for F64. -/
def fmtSuffix : Fmt → String
  | .f32 => ".S"
  | .f64 => ".D"

/-- `.A` for APX = 1, before the format as the examples of R83 write it (DEDUCED, log entry 16). -/
def tierSuffix (apx : Bool) : String := if apx then ".A" else ""

/-- `.SB` for SB = 1. -/
def broadcastSuffix (sb : Bool) : String := if sb then ".SB" else ""

/-- The text of a command with every part of R83 that it may have. -/
def commandText (mnemonic : String) (fmt : Fmt) (apx sb : Bool) (idx : Option Nat) : String :=
  mnemonic ++ tierSuffix apx ++ fmtSuffix fmt ++ broadcastSuffix sb ++
    match idx with
    | none => ""
    | some i => " #" ++ toString i

/-- The assembly text of a command (R83). -/
def assemblyText : Instr → String
  | .add fmt sb => commandText "ADD" fmt false sb none
  | .sub fmt sb => commandText "SUB" fmt false sb none
  | .mul fmt sb => commandText "MUL" fmt false sb none
  | .div fmt sb => commandText "DIV" fmt false sb none
  | .sqr fmt => commandText "SQR" fmt false false none
  | .sqrt fmt => commandText "SQRT" fmt false false none
  | .min fmt sb => commandText "MIN" fmt false sb none
  | .max fmt sb => commandText "MAX" fmt false sb none
  | .abs fmt => commandText "ABS" fmt false false none
  | .neg fmt => commandText "NEG" fmt false false none
  | .round fmt => commandText "ROUND" fmt false false none
  | .trunc fmt => commandText "TRUNC" fmt false false none
  | .rem fmt sb => commandText "REM" fmt false sb none
  | .clamp fmt sb => commandText "CLAMP" fmt false sb none
  | .rcp fmt apx => commandText "RCP" fmt apx false none
  | .rsqrt fmt apx => commandText "RSQRT" fmt apx false none
  | .cmpeq fmt sb => commandText "CMPEQ" fmt false sb none
  | .cmpne fmt sb => commandText "CMPNE" fmt false sb none
  | .cmplt fmt sb => commandText "CMPLT" fmt false sb none
  | .cmple fmt sb => commandText "CMPLE" fmt false sb none
  | .cmpgt fmt sb => commandText "CMPGT" fmt false sb none
  | .cmpge fmt sb => commandText "CMPGE" fmt false sb none
  | .inbounds fmt sb => commandText "INBOUNDS" fmt false sb none
  | .and fmt sb => commandText "AND" fmt false sb none
  | .or fmt sb => commandText "OR" fmt false sb none
  | .andnot fmt sb => commandText "ANDNOT" fmt false sb none
  | .xor fmt sb => commandText "XOR" fmt false sb none
  | .select fmt sb => commandText "SELECT" fmt false sb none
  | .copysign fmt sb => commandText "COPYSIGN" fmt false sb none
  | .extsign fmt => commandText "EXTSIGN" fmt false false none
  | .hadd fmt sb => commandText "HADD" fmt false sb none
  | .bcast fmt idx => commandText "BCAST" fmt false false (some idx.toNat)
  | .mod2pi fmt => commandText "MOD2PI" fmt false false none
  | .fold fmt => commandText "FOLD" fmt false false none
  | .sin fmt apx => commandText "SIN" fmt apx false none
  | .cos fmt apx => commandText "COS" fmt apx false none
  | .sincos fmt apx => commandText "SINCOS" fmt apx false none
  | .tan fmt => commandText "TAN" fmt false false none
  | .tanapprox fmt => commandText "TAN" fmt true false none
  | .atan fmt apx => commandText "ATAN" fmt apx false none
  | .atan2 fmt apx sb => commandText "ATAN2" fmt apx sb none
  | .ldconst fmt idx => commandText "LDCONST" fmt false false (some idx.toNat)
  | .ldcoef fmt idx => commandText "LDCOEF" fmt false false (some idx.toNat)
  | .rdcap fmt => commandText "RDCAP" fmt false false none
  | .rdstat fmt => commandText "RDSTAT" fmt false false none

/-- The names of the constant-ROM entries, in the order of R44, as `#idx` of LDCONST may give them. -/
def constNames : List String :=
  ["Zero", "One", "NegOne", "Pi", "HalfPi", "QuarterPi", "TwoPi", "OneOverPi", "OneOverTwoPi", "ThreeQuarterPi",
   "SignMask", "SignClear", "AllBitsSet", "MaskX", "MaskY", "MaskZ", "MaskW", "UnitX", "UnitY", "UnitZ", "UnitW",
   "TanEps", "NegZero"]

/-! ### Pseudo-instructions (R84) -/

/-- The table number of R47. -/
def tableNumber : TableId → Nat
  | .sinP => 0
  | .sinA => 1
  | .cosP => 2
  | .cosA => 3
  | .tanNP => 4
  | .tanDP => 5
  | .tanA => 6
  | .atanP => 7
  | .atanA => 8

/-- A pseudo-instruction of R84. -/
inductive Pseudo where
  | tanapprox (fmt : Fmt)
  | sina (fmt : Fmt)
  | cosa (fmt : Fmt)
  | sincosa (fmt : Fmt)
  | atana (fmt : Fmt)
  | atan2a (fmt : Fmt)
  | rcpa (fmt : Fmt)
  | rsqrta (fmt : Fmt)
  | bcastx (fmt : Fmt)
  | bcasty (fmt : Fmt)
  | bcastz (fmt : Fmt)
  | bcastw (fmt : Fmt)
  | not (fmt : Fmt)
  | mov (fmt : Fmt)
  | nop
  | ldcoeft (fmt : Fmt) (table : TableId) (half : Bool)
deriving DecidableEq, Repr

/-- The command a pseudo-instruction stands for (R84). -/
def Pseudo.expand : Pseudo → Instr
  | .tanapprox fmt => .tanapprox fmt
  | .sina fmt => .sin fmt true
  | .cosa fmt => .cos fmt true
  | .sincosa fmt => .sincos fmt true
  | .atana fmt => .atan fmt true
  | .atan2a fmt => .atan2 fmt true false
  | .rcpa fmt => .rcp fmt true
  | .rsqrta fmt => .rsqrt fmt true
  | .bcastx fmt => .bcast fmt 0
  | .bcasty fmt => .bcast fmt 1
  | .bcastz fmt => .bcast fmt 2
  | .bcastw fmt => .bcast fmt 3
  | .not fmt => .andnot fmt false
  | .mov fmt => .or fmt false
  | .nop => .rdstat .f32
  | .ldcoeft fmt table half => .ldcoef fmt (BitVec.ofNat 7 (2 * tableNumber table + half.toNat))

/-- The vector that the host places on B for a pseudo-instruction, where R84 fixes one. -/
def Pseudo.operandB : Pseudo → Option Bus
  | .not fmt => some (busOfLanes (constEntry fmt 12))
  | .mov fmt => some (busOfLanes (constEntry fmt 0))
  | .tanapprox _ | .sina _ | .cosa _ | .sincosa _ | .atana _ | .atan2a _ | .rcpa _ | .rsqrta _ | .bcastx _ | .bcasty _
  | .bcastz _ | .bcastw _ | .nop | .ldcoeft _ _ _ => none

end Sys2Proof.Machine
end

