-- ==== Sys2Proof/Safety.lean ====
section
/-!
DEFINITION. The terms in which claims about the MSTU are stated: which words are legal (R78), what a command leaves alone
(R33), the value of a lane and correct rounding (R102, R103), the transaction-level machine of R299, and the invariant of
the clocked machine.
-/

namespace Sys2Proof

/-! ### What a command is, apart from its meaning (R75, R76, R101) -/

/-- FMT of a command (R72). -/
def Instr.format : Instr → Fmt
  | .add fmt _ | .sub fmt _ | .mul fmt _ | .div fmt _ | .sqr fmt | .sqrt fmt | .min fmt _ | .max fmt _ | .abs fmt
  | .neg fmt | .round fmt | .trunc fmt | .rem fmt _ | .clamp fmt _ | .rcp fmt _ | .rsqrt fmt _ | .cmpeq fmt _
  | .cmpne fmt _ | .cmplt fmt _ | .cmple fmt _ | .cmpgt fmt _ | .cmpge fmt _ | .inbounds fmt _ | .and fmt _
  | .or fmt _ | .andnot fmt _ | .xor fmt _ | .select fmt _ | .copysign fmt _ | .extsign fmt | .hadd fmt _
  | .bcast fmt _ | .mod2pi fmt | .fold fmt | .sin fmt _ | .cos fmt _ | .sincos fmt _ | .tan fmt | .tanapprox fmt
  | .atan fmt _ | .atan2 fmt _ _ | .ldconst fmt _ | .ldcoef fmt _ | .rdcap fmt | .rdstat fmt => fmt

/-- The number of operand buses a command reads (R75): 0 for the class none, 1 for unary (A), 2 for binary (A, B) and 3
for ternary (A, B, C). -/
def Instr.operands : Instr → Nat
  | .ldconst _ _ | .ldcoef _ _ | .rdcap _ | .rdstat _ => 0
  | .sqr _ | .sqrt _ | .abs _ | .neg _ | .round _ | .trunc _ | .rcp _ _ | .rsqrt _ _ | .extsign _ | .bcast _ _
  | .mod2pi _ | .fold _ | .sin _ _ | .cos _ _ | .sincos _ _ | .tan _ | .tanapprox _ | .atan _ _ => 1
  | .add _ _ | .sub _ _ | .mul _ _ | .div _ _ | .min _ _ | .max _ _ | .rem _ _ | .cmpeq _ _ | .cmpne _ _ | .cmplt _ _
  | .cmple _ _ | .cmpgt _ _ | .cmpge _ _ | .inbounds _ _ | .and _ _ | .or _ _ | .andnot _ _ | .xor _ _
  | .copysign _ _ | .hadd _ _ | .atan2 _ _ _ => 2
  | .clamp _ _ | .select _ _ => 3

/-- SB of a command (R76). -/
def Instr.broadcasts : Instr → Bool
  | .add _ sb | .sub _ sb | .mul _ sb | .div _ sb | .min _ sb | .max _ sb | .rem _ sb | .clamp _ sb | .cmpeq _ sb
  | .cmpne _ sb | .cmplt _ sb | .cmple _ sb | .cmpgt _ sb | .cmpge _ sb | .inbounds _ sb | .and _ sb | .or _ sb
  | .andnot _ sb | .xor _ sb | .select _ sb | .copysign _ sb | .hadd _ sb | .atan2 _ _ sb => sb
  | .sqr _ | .sqrt _ | .abs _ | .neg _ | .round _ | .trunc _ | .rcp _ _ | .rsqrt _ _ | .extsign _ | .bcast _ _
  | .mod2pi _ | .fold _ | .sin _ _ | .cos _ _ | .sincos _ _ | .tan _ | .tanapprox _ | .atan _ _ | .ldconst _ _
  | .ldcoef _ _ | .rdcap _ | .rdstat _ => false

/-- The commands whose result bits are the same on both paths (R101): all but the transcendentals, RCP and RSQRT with
APX = 1, and RDCAP, which returns `CAP`. -/
def Instr.pathFree : Instr → Bool
  | .rcp _ apx | .rsqrt _ apx => !apx
  | .sin _ _ | .cos _ _ | .sincos _ _ | .tan _ | .tanapprox _ | .atan _ _ | .atan2 _ _ _ | .rdcap _ => false
  | .add _ _ | .sub _ _ | .mul _ _ | .div _ _ | .sqr _ | .sqrt _ | .min _ _ | .max _ _ | .abs _ | .neg _ | .round _
  | .trunc _ | .rem _ _ | .clamp _ _ | .cmpeq _ _ | .cmpne _ _ | .cmplt _ _ | .cmple _ _ | .cmpgt _ _ | .cmpge _ _
  | .inbounds _ _ | .and _ _ | .or _ _ | .andnot _ _ | .xor _ _ | .select _ _ | .copysign _ _ | .extsign _
  | .hadd _ _ | .bcast _ _ | .mod2pi _ | .fold _ | .ldconst _ _ | .ldcoef _ _ | .rdstat _ => true

/-- The commands that combine lanes (R9, R155, R156): all others work lane by lane. -/
def Instr.crossLane : Instr → Bool
  | .hadd _ _ | .bcast _ _ => true
  | .add _ _ | .sub _ _ | .mul _ _ | .div _ _ | .sqr _ | .sqrt _ | .min _ _ | .max _ _ | .abs _ | .neg _ | .round _
  | .trunc _ | .rem _ _ | .clamp _ _ | .rcp _ _ | .rsqrt _ _ | .cmpeq _ _ | .cmpne _ _ | .cmplt _ _ | .cmple _ _
  | .cmpgt _ _ | .cmpge _ _ | .inbounds _ _ | .and _ _ | .or _ _ | .andnot _ _ | .xor _ _ | .select _ _
  | .copysign _ _ | .extsign _ | .mod2pi _ | .fold _ | .sin _ _ | .cos _ _ | .sincos _ _ | .tan _ | .tanapprox _
  | .atan _ _ | .atan2 _ _ _ | .ldconst _ _ | .ldcoef _ _ | .rdcap _ | .rdstat _ => false

end Sys2Proof

namespace Sys2Proof.Machine

/-! ### Legal words (R73 to R78), read from the opcode map and not from the decoder -/

/-- The opcodes with an approximate tier (R73). -/
def apxOpcodes : List Nat := [0x0F, 0x10, 0x23, 0x24, 0x25, 0x26, 0x27, 0x28]

/-- The binary and ternary opcodes (R75). -/
def broadcastOpcodes : List Nat :=
  [0x01, 0x02, 0x03, 0x04, 0x07, 0x08, 0x0D, 0x0E, 0x11, 0x12, 0x13, 0x14, 0x15, 0x16, 0x17, 0x18, 0x19, 0x1A, 0x1B,
   0x1C, 0x1D, 0x1F, 0x28]

/-- The largest legal IDX of an opcode (R74). -/
def idxLimit (opc : Nat) : Nat :=
  if opc = 0x20 then 3 else if opc = 0x29 then 22 else if opc = 0x2A then 17 else 0

/-- `Legal(cmd)` of R78, on the bit numbers of R70. -/
def Legal (w : Word) : Prop :=
  let opc := w.toNat % 64
  w.toNat / 65536 = 0 ∧ (1 ≤ opc ∧ opc ≤ 0x2C) ∧ (w.getLsbD 7 = true → opc ∈ apxOpcodes) ∧
    (w.getLsbD 8 = true → opc ∈ broadcastOpcodes) ∧ w.toNat / 512 % 128 ≤ idxLimit opc

/-! ### What a command leaves alone, and what it answers -/

/-- Everything but the response outputs is the same in both states (R33: a legal command leaves all state unchanged). -/
structure SameButResponse (s t : State) : Prop where
  cap : t.cap = s.cap
  status : t.status = s.status
  krom32 : t.krom32 = s.krom32
  krom64 : t.krom64 = s.krom64
  q : t.q = s.q
  cmdReady : t.cmdReady = s.cmdReady
  inputs : t.inputs = s.inputs
  idleDraws : t.idleDraws = s.idleDraws

/-- Lane `j` of operand A of the command being answered. -/
def laneA (s : State) (F : Fmt) (j : Fin 4) : Lane F := busLane F s.command.a j

/-- Lane `j` of operand B: lane 0 of the bus when SB = 1 (R76). -/
def laneB (s : State) (F : Fmt) (sb : Bool) (j : Fin 4) : Lane F := busLane F s.command.b (if sb then 0 else j)

/-- Lane `j` of operand C: lane 0 of the bus when SB = 1 (R76). -/
def laneC (s : State) (F : Fmt) (sb : Bool) (j : Fin 4) : Lane F := busLane F s.command.c (if sb then 0 else j)

/-- Bits 255:128 of a result bus are 0 in an F32 command (R28). -/
def UpperZero (F : Fmt) (v : Bus) : Prop := F = .f32 → v.extractLsb' 128 128 = 0

/-- `i`, run in `s`, completes: it gives a next state with an OK response of the given lanes on RES0 and RES1, and changes
nothing but the response outputs. -/
def Completes (i : Instr) (s : State) (F : Fmt) (r0 r1 : Fin 4 → Lane F) : Prop :=
  ∃ t, exec i s = .next t ∧ SameButResponse s t ∧ t.rspValid = true ∧ t.rspCode = 0b00#2 ∧
    (∀ j : Fin 4, busLane F t.res0 j = r0 j) ∧ (∀ j : Fin 4, busLane F t.res1 j = r1 j) ∧
    UpperZero F t.res0 ∧ UpperZero F t.res1

/-- The result lanes of RES1 for a command of one result (R28): all zeros. -/
def noResult (F : Fmt) : Fin 4 → Lane F := fun _ => 0

/-- The response of an illegal command (R261), with everything but the response outputs unchanged. -/
def AnsweredIllegal (s : State) (r : Result) : Prop :=
  ∃ t, r = .next t ∧ SameButResponse s t ∧ t.rspValid = true ∧ t.rspCode = 0b01#2 ∧ t.res0 = 0 ∧ t.res1 = 0

/-- Two states answer alike: both runs complete with the same three response outputs. -/
def SameAnswer (r r' : Result) : Prop :=
  ∃ t t', r = .next t ∧ r' = .next t' ∧ t.rspCode = t'.rspCode ∧ t.res0 = t'.res0 ∧ t.res1 = t'.res1

/-! ### Values and correct rounding (R102 to R104) -/

/-- The value of a finite lane. -/
def laneValue (F : Fmt) (x : Lane F) : ℚ := (signedQuanta F x : ℚ) / 2 ^ quantumExp F

/-- Where rounding to nearest overflows (R103): the largest finite value and half a unit in its last place. -/
def overflowBound (F : Fmt) : ℚ := (2 ^ (F.fracBits + 2) - 1) * 2 ^ (F.bias - F.fracBits - 1)

/-- `r` is `x` rounded to the nearest lane, ties to the even pattern, overflow to ±∞ (R103, R104). -/
def RoundsTo (F : Fmt) (x : ℝ) (r : Lane F) : Prop :=
  (|x| < (overflowBound F : ℝ) →
    isFinite F r = true ∧
      ∀ y : Lane F, isFinite F y = true →
        |(laneValue F r : ℝ) - x| ≤ |(laneValue F y : ℝ) - x| ∧
          (|(laneValue F r : ℝ) - x| = |(laneValue F y : ℝ) - x| → laneValue F y ≠ laneValue F r →
            magnitude F r % 2 = 0)) ∧
    ((overflowBound F : ℝ) ≤ x → r = infinity F false) ∧ (x ≤ -(overflowBound F : ℝ) → r = infinity F true)

/-- Every coefficient of the tables that the precise and the approximate tiers evaluate is finite. Both ROMs of
R51 and R52 are such. -/
def FiniteRom {F : Fmt} (r : CoefRom F) : Prop := ∀ t : TableId, ∀ k : Nat, isFinite F (coef r t k) = true

/-! ### The transaction-level machine (R299) -/

/-- `MstuState` of R299, with the coefficient ROMs that it holds constant. -/
structure Mstu where
  cap : BitVec 3
  status : BitVec 32
  krom32 : CoefRom .f32
  krom64 : CoefRom .f64
deriving DecidableEq, Repr

/-- `Response` of R299. -/
structure Answer where
  code : BitVec 2
  res0 : Bus
  res1 : Bus
deriving DecidableEq, Repr

/-- What of a state the transaction-level machine keeps. -/
def State.mstu (s : State) : Mstu := { cap := s.cap, status := s.status, krom32 := s.krom32, krom64 := s.krom64 }

/-- The response on the outputs of a state. -/
def State.answer (s : State) : Answer := { code := s.rspCode, res0 := s.res0, res1 := s.res1 }

/-- A machine that holds one command and nothing else. -/
def loneState (m : Mstu) (c : Command) : State :=
  { cap := m.cap, status := m.status, krom32 := m.krom32, krom64 := m.krom64, q := [{ cmd := c, wait := 0 }],
    cmdReady := false, rspValid := false, rspCode := 0, res0 := 0, res1 := 0, inputs := [], idleDraws := 0 }

/-- `Execute` of R299: the response outputs after the command is run by itself. -/
def execute (m : Mstu) (c : Command) (i : Instr) : Answer :=
  match exec i (loneState m c) with
  | .next t => t.answer
  | _ => { code := codeOk, res0 := 0, res1 := 0 }

/-- `Step` of R299. -/
def transact (m : Mstu) (c : Command) : Mstu × Answer :=
  match decode c.word with
  | .error _ => ({ m with status := m.status ||| 1#32 }, { code := codeIllegal, res0 := 0, res1 := 0 })
  | .ok i => (m, execute m c i)

/-- The fold of `Step` over a sequence of commands (R299): the last state and the responses in order. -/
def transactAll (m : Mstu) : List Command → Mstu × List Answer
  | [] => (m, [])
  | c :: cs =>
    let r := transactAll (transact m c).1 cs
    (r.1, (transact m c).2 :: r.2)

/-! ### Runs of the clocked machine -/

/-- The command accepted at the coming edge, if any (R296); none at an edge with `rst_n` = 0 (R266). -/
def acceptedNow (s : State) : List Command :=
  if s.pins.rstN && commandAccepted s.pins s then [commandOfPins s.pins] else []

/-- The response delivered at the coming edge, if any (R296). DESIGN CHOICE, log entry 19: a response with `rsp_valid` and
`rsp_ready` both 1 at an edge with `rst_n` = 0 is not counted as delivered. -/
def deliveredNow (s : State) : List Answer :=
  if s.pins.rstN && responseTaken s.pins s then [s.answer] else []

/-- `n` rising edges: the commands accepted, the responses delivered, and the last state. -/
def runEdges (depth : Nat) (lat : BitVec 3 → Word → Nat) : Nat → State → List Command × List Answer × State
  | 0, s => ([], [], s)
  | n + 1, s =>
    match edge depth lat s with
    | .next t =>
      let r := runEdges depth lat n t
      (acceptedNow s ++ r.1, deliveredNow s ++ r.2.1, r.2.2)
    | _ => ([], [], s)

/-- `rst_n` is 1 at each of the next `n` edges. -/
def NoReset (n : Nat) (s : State) : Prop := ∀ p ∈ s.inputs.take n, p.rstN = true

/-! ### The invariant of the clocked machine -/

/-- `CAP` holds a legal value (R21, R22). -/
def CapLegal (s : State) : Prop := s.cap = 0b000#3 ∨ s.cap = 0b001#3 ∨ s.cap = 0b011#3 ∨ s.cap = 0b111#3

/-- Bits 31:1 of `STATUS` are 0 (R23). -/
def StatusReserved (s : State) : Prop := s.status.extractLsb' 1 31 = 0

/-- The coefficient ROMs keep the term counts and the mandatory present bits (R50). -/
def RomsWf (s : State) : Prop := coefRomWf s.krom32 = true ∧ coefRomWf s.krom64 = true

/-- `Q` has at most `depth` entries (R30), and fewer when `cmd_ready` is 1 (R297). -/
def QueueFits (depth : Nat) (s : State) : Prop :=
  s.q.length ≤ depth ∧ (s.cmdReady = true → s.q.length < depth)

/-- A presented response is the one the transaction-level machine gives to the oldest command of `Q` (R31, R60, R299). -/
def PresentedRight (s : State) : Prop :=
  s.rspValid = true → ∃ e rest, s.q = e :: rest ∧ s.answer = (transact s.mstu e.cmd).2

/-- The invariant, for a queue depth. -/
structure Inv (depth : Nat) (s : State) : Prop where
  capLegal : CapLegal s
  statusReserved : StatusReserved s
  romsWf : RomsWf s
  queueFits : QueueFits depth s
  presentedRight : PresentedRight s

end Sys2Proof.Machine
end

