-- ==== Sys2Proof/Certificates/Slice0/Obligations.lean ====
section
/-!
DEFINITION. The statements about the MSTU for the provers: encodings, the clocked machine, each command's result and frame,
the floating-point primitives, and the whole-machine rules of the spec.
-/

open Sys2Proof Sys2Proof.Machine

/-! ### The command word (R70 to R85) -/

/-- Decoding the encoding of a well-formed command gives it back (R70, R74, R79). -/
def Obligations.DecodeEncode : Prop := ∀ i : Instr, i.wellFormed = true → decode (encode i) = .ok i

/-- A word that decodes is the encoding of its command, and the command is well formed: no two words are one command. -/
def Obligations.EncodeDecode : Prop := ∀ (w : Word) (i : Instr), decode w = .ok i → encode i = w ∧ i.wellFormed = true

/-- R78: a word decodes exactly when `Legal` holds, and every other word, in every state, gets the response of R261. -/
def Obligations.DecodeIffLegal : Prop :=
  (∀ w : Word, (∃ i, decode w = .ok i) ↔ Legal w) ∧
    ∀ (w : Word) (s : State), ¬ Legal w → AnsweredIllegal s (runCommand w s)

/-- R77: a 1 in any bit of RSV makes the command illegal. -/
def Obligations.ReservedFieldRefused : Prop :=
  ∀ (w : Word) (k : Nat) (s : State), 16 ≤ k → k < 32 → w.getLsbD k = true →
    (∀ i, decode w ≠ .ok i) ∧ AnsweredIllegal s (runCommand w s)

/-- Words written out from R83, R85 and R276: each decodes to the command the spec names, or to none. -/
def Obligations.WrittenWords : Prop :=
  decode 0x00000001#32 = .ok (.add .f32 false) ∧ decode 0x00000101#32 = .ok (.add .f32 true) ∧
    decode 0x00000063#32 = .ok (.sin .f64 false) ∧ decode 0x000000A3#32 = .ok (.sin .f32 true) ∧
    decode 0x000000E6#32 = .ok (.tanapprox .f64) ∧ decode 0x00000420#32 = .ok (.bcast .f32 2) ∧
    decode 0x00000669#32 = .ok (.ldconst .f64 3) ∧ decode 0x00001E2A#32 = .ok (.ldcoef .f32 15) ∧
    decode 0x00000128#32 = .ok (.atan2 .f32 false true) ∧ decode 0x000000E3#32 = .ok (.sin .f64 true) ∧
    decode 0x00000081#32 = .error .apxNotAllowed ∧ decode 0x00000806#32 = .error .idxOutOfRange ∧
    decode 0x00000105#32 = .error .sbNotAllowed ∧ decode 0x00000820#32 = .error .idxOutOfRange ∧
    decode 0x00010001#32 = .error .reservedBits ∧ decode 0x00000000#32 = .error .reservedOpcode ∧
    decode 0x0000002D#32 = .error .reservedOpcode

/-! ### The clocked machine (R20 to R33, R260 to R268, R290 to R299) -/

/-- A step runs the decoded command: at an edge with no reset, after the handshakes, the command that is due is the oldest of
`Q` and the step is `exec` of what its word decodes to, in the state the handshakes leave. A command word placed with
`withFetchWord` is the one the next step runs. Both clauses are the model's choice: that one step is one rising edge, and
`withFetchWord`, are log entry 4, and that a command runs at the first edge at which it is due is log entries 9 and 13. -/
def Obligations.StepRunsDecoded : Prop :=
  (∀ (s : State) (c : Command) (i : Instr), s.pins.rstN = true →
      dueCommand (handshake Config.depth latencyOf s.pins (popInputs s)) = some c → decode c.word = .ok i →
        (handshake Config.depth latencyOf s.pins (popInputs s)).command = c ∧
          step s = exec i (handshake Config.depth latencyOf s.pins (popInputs s))) ∧
    ∀ (s : State) (w : Nat) (i : Instr), w < 2 ^ 32 → decode (BitVec.ofNat 32 w) = .ok i →
      ∃ u : State, step (s.withFetchWord 32 w) = exec i u ∧ u.command = { s.command with word := BitVec.ofNat 32 w } ∧
        u.mstu = s.mstu

/-- Every step answers a next state: no input, no operand and no command word stops the MSTU. -/
def Obligations.EveryStepAnswers : Prop := ∀ s : State, ∃ t : State, step s = .next t

/-- R260: a command is answered OK exactly when its word is legal and ILLEGAL otherwise, whatever its operands, and nothing
but the response outputs changes when it is answered. -/
def Obligations.TwoResponseCodes : Prop :=
  ∀ (w : Word) (s : State), ∃ t : State, runCommand w s = .next t ∧ SameButResponse s t ∧ t.rspValid = true ∧
    (Legal w → t.rspCode = 0b00#2) ∧ (¬ Legal w → t.rspCode = 0b01#2)

/-- R24: `STATUS.ILL` is set at the edge at which the response to an illegal command is delivered, only a reset edge clears
it, no other bit of `STATUS` ever changes outside reset, and an RDSTAT sees exactly the deliveries before it. -/
def Obligations.StatusAtDelivery : Prop :=
  ∀ s t : State, Inv Config.depth s → step s = .next t →
    (s.pins.rstN = false → t.status = 0) ∧
      (s.pins.rstN = true → (s.rspValid && s.pins.rspReady) = false → t.status = s.status) ∧
      (s.pins.rstN = true → (s.rspValid && s.pins.rspReady) = true → ∀ e rest, s.q = e :: rest →
        (Legal e.cmd.word → t.status = s.status) ∧ (¬ Legal e.cmd.word → t.status = s.status ||| 1#32)) ∧
      (s.pins.rstN = true → s.status.getLsbD 0 = true → t.status.getLsbD 0 = true) ∧
      ∀ (c : Command) (F : Fmt), s.pins.rstN = true →
        dueCommand (handshake Config.depth latencyOf s.pins (popInputs s)) = some c → decode c.word = .ok (.rdstat F) →
          busLane F t.res0 0 = t.status.setWidth F.width

/-- R290 and R32: what a reset edge leaves, and `cmd_ready` after the first edge at which `rst_n` is 1 again. -/
def Obligations.ResetEdge : Prop :=
  ∀ s : State, s.pins.rstN = false →
    ∃ t : State, step s = .next t ∧ t.cap = sanitise s.pins.capIn ∧ t.status = 0 ∧ t.q = [] ∧ t.cmdReady = false ∧
      t.rspValid = false ∧ t.krom32 = s.krom32 ∧ t.krom64 = s.krom64 ∧ t.inputs = s.inputs.tail ∧
      (t.pins.rstN = true → ∃ u : State, step t = .next u ∧ u.cmdReady = true ∧ u.q = [] ∧ u.rspValid = false ∧
        u.cap = t.cap ∧ u.status = 0)

/-- R22: `CAP` is loaded at reset from `CAP_IN` by the three equations, holds a legal value then, and does not change at any
edge with no reset, whatever `CAP_IN` does. -/
def Obligations.CapSanitised : Prop :=
  (∀ s t : State, s.pins.rstN = false → step s = .next t →
      t.cap.getLsbD 0 = s.pins.capIn.getLsbD 0 ∧
        t.cap.getLsbD 1 = (s.pins.capIn.getLsbD 1 && s.pins.capIn.getLsbD 0) ∧
        t.cap.getLsbD 2 = (s.pins.capIn.getLsbD 2 && s.pins.capIn.getLsbD 1 && s.pins.capIn.getLsbD 0) ∧ CapLegal t) ∧
    (∀ s t : State, s.pins.rstN = true → step s = .next t → t.cap = s.cap) ∧ sanitise 0b101#3 = 0b001#3

/-- R293: while `rst_n` is 1, `CAP_IN` is not sampled: a change on it changes no step. -/
def Obligations.CapInIgnored : Prop :=
  ∀ (s : State) (p : Pins) (ps : List Pins) (v : BitVec 3), s.inputs = p :: ps → p.rstN = true →
    step { s with inputs := { p with capIn := v } :: ps } = step s

/-- The wires that carry nothing at an edge are ignored: command and operand buses when no command is taken, and `rsp_ready`
when no response is presented. -/
def Obligations.IdleWiresIgnored : Prop :=
  ∀ (s : State) (p : Pins) (ps : List Pins), s.inputs = p :: ps → p.rstN = true →
    ((p.cmdValid && s.cmdReady) = false → ∀ (w : Word) (a b c : Bus),
        step { s with inputs := { p with cmdWord := w, opa := a, opb := b, opc := c } :: ps } = step s) ∧
      (s.rspValid = false → ∀ r : Bool, step { s with inputs := { p with rspReady := r } :: ps } = step s)

/-- A presented response that is not taken is held: `rsp_valid`, the three outputs and the command at the head of `Q`. -/
def Obligations.ResponseHeld : Prop :=
  ∀ s t : State, s.pins.rstN = true → s.rspValid = true → s.pins.rspReady = false → step s = .next t →
    t.rspValid = true ∧ t.answer = s.answer ∧ t.status = s.status ∧
      ∀ e rest, s.q = e :: rest → t.command = e.cmd

/-- `Q` at an edge with no reset: the command answered leaves at the front, the command accepted joins at the end, and no
other command is lost, added or moved. -/
def Obligations.QueueInOrder : Prop :=
  ∀ s t : State, s.pins.rstN = true → step s = .next t →
    t.q.map Entry.cmd =
      (if (s.rspValid && s.pins.rspReady) = true then s.q.tail else s.q).map Entry.cmd ++
        if (s.pins.cmdValid && s.cmdReady) = true then
          [{ word := s.pins.cmdWord, a := s.pins.opa, b := s.pins.opb, c := s.pins.opc }]
        else []

/-- R297: after an edge `cmd_ready` is 1 exactly when that edge had `rst_n` = 1 and `Q` has room; an edge that accepts a
command and delivers a response leaves the number of commands in flight as it was; `DEPTH` is at least 1. -/
def Obligations.CommandReady : Prop :=
  (∀ s t : State, step s = .next t → (t.cmdReady = true ↔ s.pins.rstN = true ∧ t.q.length < Config.depth)) ∧
    (∀ s t : State, step s = .next t → s.pins.rstN = true → s.q ≠ [] → (s.rspValid && s.pins.rspReady) = true →
      (s.pins.cmdValid && s.cmdReady) = true → t.q.length = s.q.length) ∧ 1 ≤ Config.depth

/-- The latency of R298: a command accepted by an empty machine has its response presented after exactly `LAT` edges (so that
it can be taken at edge t + LAT), with the right content, and the latency is the same for every operand. That the response
comes at the earliest edge R298 allows is the model's reading (log entry 9). -/
def Obligations.LatencyExact : Prop :=
  (∀ (depth : Nat) (lat : BitVec 3 → Word → Nat) (s : State) (n : Nat), s.q = [] → s.rspValid = false →
      s.cmdReady = true → s.pins.rstN = true → s.pins.cmdValid = true → 1 ≤ n → n ≤ lat s.cap s.pins.cmdWord →
      NoReset n s →
        let t := (runEdges depth lat n s).2.2
        (t.rspValid = true ↔ n = lat s.cap s.pins.cmdWord) ∧
          (t.rspValid = true → t.answer = (transact s.mstu (commandOfPins s.pins)).2)) ∧
    ∀ (cap : BitVec 3) (w : Word), 1 ≤ latencyOf cap w

/-- The invariant holds right after reset, for every strap and every coefficient ROM that R50 allows. `State.reset` takes
the strap of log entry 1. -/
def Obligations.InvariantAtReset : Prop :=
  (∀ (capIn : BitVec 3) (k32 : CoefRom .f32) (k64 : CoefRom .f64), coefRomWf k32 = true → coefRomWf k64 = true →
      Inv Config.depth (State.resetWith capIn k32 k64)) ∧
    Inv Config.depth State.reset

/-- Every step keeps the invariant: `CAP` legal, `STATUS` with bits 31:1 at 0, the ROMs well formed, `Q` within its depth and
below it when `cmd_ready` is 1, and a presented response the one that R299 gives its command. -/
def Obligations.InvariantKept : Prop :=
  ∀ s t : State, Inv Config.depth s → step s = .next t → Inv Config.depth t

/-- R299: over any number of edges with no reset, for any depth and latency, the responses delivered are the fold of `Step`
over the commands accepted, in acceptance order; the commands not yet answered are still in `Q` in that order. -/
def Obligations.RunIsFold : Prop :=
  ∀ (depth : Nat) (lat : BitVec 3 → Word → Nat) (n : Nat) (s : State), Inv depth s → NoReset n s →
    let accepted := (runEdges depth lat n s).1
    let delivered := (runEdges depth lat n s).2.1
    let t := (runEdges depth lat n s).2.2
    let commands := s.q.map Entry.cmd ++ accepted
    delivered.length ≤ commands.length ∧
      delivered = (transactAll s.mstu (commands.take delivered.length)).2 ∧
      t.mstu = (transactAll s.mstu (commands.take delivered.length)).1 ∧
      t.q.map Entry.cmd = commands.drop delivered.length

/-- Timing is invisible: two machines with the same `CAP`, `STATUS` and ROMs that accept the same commands deliver the same
responses in the same order, whatever their depths, their latencies and their hosts' handshakes; the one that has run
shorter has delivered a prefix. -/
def Obligations.TimingInvisible : Prop :=
  ∀ (depth depth' : Nat) (lat lat' : BitVec 3 → Word → Nat) (n n' : Nat) (s s' : State), Inv depth s → Inv depth' s' →
    s.q = [] → s'.q = [] → s.mstu = s'.mstu → NoReset n s → NoReset n' s' →
    (runEdges depth lat n s).1 = (runEdges depth' lat' n' s').1 →
    (runEdges depth lat n s).2.1.length ≤ (runEdges depth' lat' n' s').2.1.length →
      (runEdges depth lat n s).2.1 =
        (runEdges depth' lat' n' s').2.1.take (runEdges depth lat n s).2.1.length

/-! ### Whole-machine rules over the commands -/

/-- R75 and R28: a command's answer depends on `CAP`, the coefficient ROMs, for RDSTAT alone on `STATUS`, and on the lanes of
the operand buses that its class reads; an unread bus, and bits 255:128 in F32, may hold anything. -/
def Obligations.OperandsRead : Prop :=
  ∀ (i : Instr) (s s' : State), s.cap = s'.cap → s.krom32 = s'.krom32 → s.krom64 = s'.krom64 →
    ((∃ F, i = .rdstat F) → s.status = s'.status) →
    (1 ≤ i.operands → ∀ j : Fin 4, laneA s i.format j = laneA s' i.format j) →
    (2 ≤ i.operands → ∀ j : Fin 4, laneB s i.format i.broadcasts j = laneB s' i.format i.broadcasts j) →
    (3 ≤ i.operands → ∀ j : Fin 4, laneC s i.format i.broadcasts j = laneC s' i.format i.broadcasts j) →
      SameAnswer (exec i s) (exec i s')

/-- Lanes do not interact, except in HADD and BCAST: a result lane depends on the same lane of the operands (after the
scalar broadcast) and on no other. -/
def Obligations.LanesApart : Prop :=
  ∀ (i : Instr) (s s' : State) (j : Fin 4), i.crossLane = false → s.mstu = s'.mstu →
    laneA s i.format j = laneA s' i.format j →
    laneB s i.format i.broadcasts j = laneB s' i.format i.broadcasts j →
    laneC s i.format i.broadcasts j = laneC s' i.format i.broadcasts j →
      ∃ t t' : State, exec i s = .next t ∧ exec i s' = .next t' ∧
        busLane i.format t.res0 j = busLane i.format t'.res0 j ∧ busLane i.format t.res1 j = busLane i.format t'.res1 j

/-- R134, R101 and R21: outside the transcendentals, RCP.A, RSQRT.A and RDCAP, a command gives the same answer at every `CAP`;
and `CAP.E` changes the answer of no command but RDCAP, whose result holds it. -/
def Obligations.PathsAgree : Prop :=
  (∀ (i : Instr) (s : State) (c : BitVec 3), i.pathFree = true → SameAnswer (exec i s) (exec i { s with cap := c })) ∧
    ∀ (i : Instr) (s : State) (c : BitVec 3), (∀ F, i ≠ .rdcap F) → c.getLsbD 0 = s.cap.getLsbD 0 →
      c.getLsbD 2 = s.cap.getLsbD 2 → SameAnswer (exec i s) (exec i { s with cap := c })

/-- R100: `fast(F)` is `CAP.B` in F32 and `CAP.W` in F64, and `fused(F)` is `fast(F)` and `CAP.W`. On the fallback path TAN,
ATAN and ATAN2 run their rules with every `MulAdd` a rounded product and a rounded sum, and so does TANAPPROX, which is TAN
there; ATAN and ATAN2 keep their tier. In every format the answer at a `CAP` with `fast(F)` false is the one at `CAP` 000, and
in F32 TAN, ATAN and ATAN2 give the same answer at 001, 011 and 000 (R217, R234, R239). -/
def Obligations.FallbackUnfused : Prop :=
  (∀ cap : BitVec 3, fast .f32 cap = cap.getLsbD 0 ∧ fast .f64 cap = cap.getLsbD 2 ∧
      fused .f32 cap = (cap.getLsbD 0 && cap.getLsbD 2) ∧ fused .f64 cap = cap.getLsbD 2) ∧
    (∀ (F : Fmt) (a b c : Lane F), mulAdd F false a b c = fadd F (fmul F a b) c ∧ mulAdd F true a b c = ffma F a b c) ∧
    (∀ (F : Fmt) (s : State) (apx sb : Bool), fast F s.cap = false →
      Completes (.tan F) s F (fun j => tanPrecise F false (s.krom F) (laneA s F j)) (noResult F) ∧
        Completes (.tanapprox F) s F (fun j => tanPrecise F false (s.krom F) (laneA s F j)) (noResult F) ∧
        Completes (.atan F apx) s F (fun j => atanOf F false (s.krom F) apx (laneA s F j)) (noResult F) ∧
        Completes (.atan2 F apx sb) s F
          (fun j => atan2Of F false (s.krom F) apx (laneA s F j) (laneB s F sb j)) (noResult F)) ∧
    (∀ (F : Fmt) (s : State) (apx sb : Bool), fast F s.cap = false →
      SameAnswer (exec (.tan F) s) (exec (.tan F) { s with cap := 0b000#3 }) ∧
        SameAnswer (exec (.tanapprox F) s) (exec (.tan F) { s with cap := 0b000#3 }) ∧
        SameAnswer (exec (.atan F apx) s) (exec (.atan F apx) { s with cap := 0b000#3 }) ∧
        SameAnswer (exec (.atan2 F apx sb) s) (exec (.atan2 F apx sb) { s with cap := 0b000#3 })) ∧
    ∀ (s : State) (apx sb : Bool), s.cap = 0b001#3 ∨ s.cap = 0b011#3 →
      SameAnswer (exec (.tan .f32) s) (exec (.tan .f32) { s with cap := 0b000#3 }) ∧
        SameAnswer (exec (.atan .f32 apx) s) (exec (.atan .f32 apx) { s with cap := 0b000#3 }) ∧
        SameAnswer (exec (.atan2 .f32 apx sb) s) (exec (.atan2 .f32 apx sb) { s with cap := 0b000#3 })

/-- R192, R214 and R231: an approximate tier whose table is absent answers exactly as the precise tier, whatever the absent
table's coefficients are; TANAPPROX does so on the fallback path too; in `REF_ROM` the SIN_A and COS_A tables are present. -/
def Obligations.TiersDegrade : Prop :=
  (∀ (F : Fmt) (s : State) (sb : Bool),
      (tablePresent (s.krom F) .sinA = false → SameAnswer (exec (.sin F true) s) (exec (.sin F false) s)) ∧
        (tablePresent (s.krom F) .cosA = false → SameAnswer (exec (.cos F true) s) (exec (.cos F false) s)) ∧
        (tablePresent (s.krom F) .sinA = false → tablePresent (s.krom F) .cosA = false →
          SameAnswer (exec (.sincos F true) s) (exec (.sincos F false) s)) ∧
        (fast F s.cap = false ∨ tablePresent (s.krom F) .tanA = false →
          SameAnswer (exec (.tanapprox F) s) (exec (.tan F) s)) ∧
        (tablePresent (s.krom F) .atanA = false →
          SameAnswer (exec (.atan F true) s) (exec (.atan F false) s) ∧
            SameAnswer (exec (.atan2 F true sb) s) (exec (.atan2 F false sb) s))) ∧
    tablePresent refRom32 .sinA = true ∧ tablePresent refRom32 .cosA = true ∧ tablePresent refRom64 .sinA = true ∧
    tablePresent refRom64 .cosA = true

/-- R199: RES0 of SINCOS is RES0 of SIN and RES1 of SINCOS is RES0 of COS, bit for bit. -/
def Obligations.SincosAgrees : Prop :=
  ∀ (F : Fmt) (apx : Bool) (s : State), ∃ t u v : State, exec (.sincos F apx) s = .next t ∧
    exec (.sin F apx) s = .next u ∧ exec (.cos F apx) s = .next v ∧ t.res0 = u.res0 ∧ t.res1 = v.res0 ∧
    t.rspCode = 0b00#2 ∧ u.rspCode = 0b00#2 ∧ v.rspCode = 0b00#2

/-! ### The result and the frame of every command -/

/-- ADD, SUB, MUL, DIV, MIN, MAX and REM complete, with the lanes of R110 to R113, R116, R117 and R122. -/
def Obligations.ArithBinaryResult : Prop :=
  ∀ (F : Fmt) (sb : Bool) (s : State),
    Completes (.add F sb) s F (fun j => fadd F (laneA s F j) (laneB s F sb j)) (noResult F) ∧
      Completes (.sub F sb) s F (fun j => fsub F (laneA s F j) (laneB s F sb j)) (noResult F) ∧
      Completes (.mul F sb) s F (fun j => fmul F (laneA s F j) (laneB s F sb j)) (noResult F) ∧
      Completes (.div F sb) s F (fun j => fdiv F (laneA s F j) (laneB s F sb j)) (noResult F) ∧
      Completes (.min F sb) s F
        (fun j => if flt F (laneA s F j) (laneB s F sb j) = true then laneA s F j else laneB s F sb j) (noResult F) ∧
      Completes (.max F sb) s F
        (fun j => if flt F (laneB s F sb j) (laneA s F j) = true then laneA s F j else laneB s F sb j) (noResult F) ∧
      Completes (.rem F sb) s F
        (fun j => fsub F (laneA s F j)
          (fmul F (rintZero F (fdiv F (laneA s F j) (laneB s F sb j))) (laneB s F sb j))) (noResult F)

/-- SQR, SQRT, ABS, NEG, ROUND and TRUNC complete, with the lanes of R114, R115 and R118 to R121: ABS keeps the operand
unless its negation is greater, and NEG flips the sign bit and no other. -/
def Obligations.ArithUnaryResult : Prop :=
  ∀ (F : Fmt) (s : State),
    Completes (.sqr F) s F (fun j => fmul F (laneA s F j) (laneA s F j)) (noResult F) ∧
      Completes (.sqrt F) s F (fun j => fsqrt F (laneA s F j)) (noResult F) ∧
      Completes (.abs F) s F
        (fun j => if flt F (laneA s F j) (flipSign F (laneA s F j)) = true then flipSign F (laneA s F j)
          else laneA s F j) (noResult F) ∧
      Completes (.neg F) s F (fun j => flipSign F (laneA s F j)) (noResult F) ∧
      Completes (.round F) s F (fun j => rintEven F (laneA s F j)) (noResult F) ∧
      Completes (.trunc F) s F (fun j => rintZero F (laneA s F j)) (noResult F)

/-- CLAMP and SELECT complete: CLAMP is `MAX(MIN(v, hi), lo)` (R123), and SELECT takes each bit from B where the mask bit is
1 and from C where it is 0 (R152). -/
def Obligations.TernaryResult : Prop :=
  ∀ (F : Fmt) (sb : Bool) (s : State),
    Completes (.clamp F sb) s F
      (fun j =>
        let m := if flt F (laneA s F j) (laneC s F sb j) = true then laneA s F j else laneC s F sb j
        if flt F (laneB s F sb j) m = true then m else laneB s F sb j) (noResult F) ∧
    ∃ t, exec (.select F sb) s = .next t ∧ SameButResponse s t ∧ t.rspValid = true ∧ t.rspCode = 0b00#2 ∧ t.res1 = 0 ∧
      UpperZero F t.res0 ∧ ∀ (j : Fin 4) (k : Nat), k < F.width →
        (busLane F t.res0 j).getLsbD k =
          if (laneA s F j).getLsbD k = true then (laneB s F sb j).getLsbD k else (laneC s F sb j).getLsbD k

/-- RCP and RSQRT complete: the estimate with APX = 1 on the fast path, else the exact quotient (R124, R125). -/
def Obligations.ReciprocalResult : Prop :=
  ∀ (F : Fmt) (apx : Bool) (s : State),
    Completes (.rcp F apx) s F
      (fun j => if apx = true ∧ fast F s.cap = true then rcpEst F (laneA s F j)
        else fdiv F (constLane F 1) (laneA s F j)) (noResult F) ∧
    Completes (.rsqrt F apx) s F
      (fun j => if apx = true ∧ fast F s.cap = true then rsqrtEst F (laneA s F j)
        else fdiv F (constLane F 1) (fsqrt F (laneA s F j))) (noResult F)

/-- The six compares and INBOUNDS complete, each lane all ones or all zeros (R140 to R147). -/
def Obligations.CompareResult : Prop :=
  ∀ (F : Fmt) (sb : Bool) (s : State),
    Completes (.cmpeq F sb) s F
      (fun j => if feq F (laneA s F j) (laneB s F sb j) = true then BitVec.allOnes F.width else 0) (noResult F) ∧
    Completes (.cmpne F sb) s F
      (fun j => if feq F (laneA s F j) (laneB s F sb j) = true then 0 else BitVec.allOnes F.width) (noResult F) ∧
    Completes (.cmplt F sb) s F
      (fun j => if flt F (laneA s F j) (laneB s F sb j) = true then BitVec.allOnes F.width else 0) (noResult F) ∧
    Completes (.cmple F sb) s F
      (fun j => if fle F (laneA s F j) (laneB s F sb j) = true then BitVec.allOnes F.width else 0) (noResult F) ∧
    Completes (.cmpgt F sb) s F
      (fun j => if flt F (laneB s F sb j) (laneA s F j) = true then BitVec.allOnes F.width else 0) (noResult F) ∧
    Completes (.cmpge F sb) s F
      (fun j => if fle F (laneB s F sb j) (laneA s F j) = true then BitVec.allOnes F.width else 0) (noResult F) ∧
    Completes (.inbounds F sb) s F
      (fun j => if fle F (laneA s F j) (laneB s F sb j) = true ∧ fle F (flipSign F (laneB s F sb j)) (laneA s F j) = true
        then BitVec.allOnes F.width else 0) (noResult F)

/-- AND, OR, ANDNOT, XOR, EXTSIGN and COPYSIGN complete, with the lanes of R148 to R151, R153 and R154: EXTSIGN is the zero
of the operand's sign, and COPYSIGN puts A's sign on v's magnitude, except that -0 and a negative NaN stay as they are. -/
def Obligations.BitwiseResult : Prop :=
  ∀ (F : Fmt) (sb : Bool) (s : State),
    Completes (.and F sb) s F (fun j => laneA s F j &&& laneB s F sb j) (noResult F) ∧
      Completes (.or F sb) s F (fun j => laneA s F j ||| laneB s F sb j) (noResult F) ∧
      Completes (.andnot F sb) s F (fun j => ~~~(laneA s F j) &&& laneB s F sb j) (noResult F) ∧
      Completes (.xor F sb) s F (fun j => laneA s F j ^^^ laneB s F sb j) (noResult F) ∧
      Completes (.extsign F) s F (fun j => zero F (signbit F (laneA s F j))) (noResult F) ∧
      Completes (.copysign F sb) s F
        (fun j =>
          let v := laneB s F sb j
          if signbit F v = true ∧ (isZero F v = true ∨ isNaN F v = true) then v
          else pack F (signbit F (laneA s F j)) (magnitude F v)) (noResult F)

/-- HADD completes with the sums of adjacent pairs of A, then of B (R155); BCAST completes with the lane that IDX names in
every lane (R156). That `exec` of a BCAST with IDX above 3, a command no word decodes to, answers as an illegal command is the
model's choice, log entry 14. -/
def Obligations.CrossLaneResult : Prop :=
  ∀ (F : Fmt) (s : State),
    (∀ sb : Bool, Completes (.hadd F sb) s F
      (fun j =>
        if j = 0 then fadd F (laneA s F 0) (laneA s F 1)
        else if j = 1 then fadd F (laneA s F 2) (laneA s F 3)
        else if j = 2 then fadd F (laneB s F sb 0) (laneB s F sb 1)
        else fadd F (laneB s F sb 2) (laneB s F sb 3)) (noResult F)) ∧
    (∀ l : Fin 4, Completes (.bcast F (BitVec.ofNat 7 l)) s F (fun _ => laneA s F l) (noResult F)) ∧
    ∀ idx : BitVec 7, 3 < idx.toNat → AnsweredIllegal s (exec (.bcast F idx) s)

/-- MOD2PI and FOLD complete. MOD2PI is `x - round(x/2π)·2π` in four roundings (R173). FOLD passes a lane with |a| ≤ HalfPi,
with cosine sign One, and reflects any other about Pi with a's sign, with cosine sign NegOne (R175). -/
def Obligations.ReductionResult : Prop :=
  ∀ (F : Fmt) (s : State),
    Completes (.mod2pi F) s F
      (fun j => fsub F (laneA s F j)
        (fmul F (rintEven F (fmul F (laneA s F j) (constLane F 8))) (constLane F 6))) (noResult F) ∧
    Completes (.fold F) s F
      (fun j =>
        let a := laneA s F j
        if fle F (pack F false (magnitude F a)) (constLane F 4) = true then a
        else fsub F (pack F (signbit F a) (magnitude F (constLane F 3))) a)
      (fun j => if fle F (pack F false (magnitude F (laneA s F j))) (constLane F 4) = true then constLane F 1
        else constLane F 2)

/-- SIN, COS and SINCOS complete: on the fast path the pipeline of R190 with the tables of R191, else the reference functions
(R193). The evaluator is written out: Horner's rule from the highest coefficient down, the coefficient as the addend, and the
implicit leading 1, each step one rounding when fused and two when not (R100, R170, R171); 4 coefficients in the precise
tables and 3 in the approximate ones. -/
def Obligations.SinCosResult : Prop :=
  ∀ (F : Fmt) (apx : Bool) (s : State),
    let k := s.krom F
    let onFast : Bool := if F = .f32 then s.cap.getLsbD 0 else s.cap.getLsbD 2
    let mad := fun a b c : Lane F =>
      if onFast = true ∧ s.cap.getLsbD 2 = true then ffma F a b c else fadd F (fmul F a b) c
    let poly := fun (t : TableId) (n : Nat) (m : Lane F) =>
      mad ((List.range (n - 1)).foldr (fun i acc => mad acc m (coef k t i)) (coef k t (n - 1))) m (constLane F 1)
    let folded := fun x : Lane F => foldLane F (mod2PiLane F x)
    let sine := fun x : Lane F =>
      let m := fmul F (folded x).1 (folded x).1
      fmul F (if apx = true ∧ tablePresent k .sinA = true then poly .sinA 3 m else poly .sinP 4 m) (folded x).1
    let cosine := fun x : Lane F =>
      let m := fmul F (folded x).1 (folded x).1
      fmul F (if apx = true ∧ tablePresent k .cosA = true then poly .cosA 3 m else poly .cosP 4 m) (folded x).2
    let r0 := fun j : Fin 4 => if onFast = true then sine (laneA s F j) else refSin F (laneA s F j)
    let r1 := fun j : Fin 4 => if onFast = true then cosine (laneA s F j) else refCos F (laneA s F j)
    Completes (.sin F apx) s F r0 (noResult F) ∧ Completes (.cos F apx) s F r1 (noResult F) ∧
      Completes (.sincos F apx) s F r0 r1

/-- TAN and TANAPPROX complete. TAN gives +0 for ±0; else, with the quotient q and the remainder r of R210 and the pair
(N, D) of R212 (replaced by (r, 1) below TanEps, R213), `-D/N` when q is odd and `N/D` otherwise (R215). TANAPPROX is the
single ratio of R216 on the fast path with TAN_A present, and TAN elsewhere. The evaluator and its fusing are written out
(R100, R170, R171), and a quotient is odd when it is finite and its value an odd integer (R211). -/
def Obligations.TanResult : Prop :=
  (∀ (F : Fmt) (q : Lane F),
      isOddIntegral F q = true ↔ isFinite F q = true ∧ ∃ n : ℤ, Odd n ∧ laneValue F q = n) ∧
    ∀ (F : Fmt) (s : State),
      let k := s.krom F
      let onFast : Bool := if F = .f32 then s.cap.getLsbD 0 else s.cap.getLsbD 2
      let mad := fun a b c : Lane F =>
        if onFast = true ∧ s.cap.getLsbD 2 = true then ffma F a b c else fadd F (fmul F a b) c
      let poly := fun (t : TableId) (m : Lane F) =>
        mad (mad (coef k t 1) m (coef k t 0)) m (constLane F 1)
      let precise := fun x : Lane F =>
        let q := rintEven F (fdiv F x (constLane F 4))
        let r := fsub F x (fmul F q (constLane F 4))
        let near : Bool := flt F (pack F false (magnitude F r)) (constLane F 21)
        let num := if near = true then r else fmul F r (poly .tanNP (fmul F r r))
        let den := if near = true then constLane F 1 else poly .tanDP (fmul F r r)
        if isZero F x = true then zero F false
        else if isOddIntegral F q = true then fdiv F (flipSign F den) num
        else fdiv F num den
      let ratio := fun x : Lane F =>
        let r := fsub F x (fmul F (rintEven F (fmul F x (constLane F 7))) (constLane F 3))
        let m := fmul F r r
        fdiv F (fmul F r (mad (coef k .tanA 1) m (coef k .tanA 0))) (fsub F (coef k .tanA 2) m)
      Completes (.tan F) s F (fun j => precise (laneA s F j)) (noResult F) ∧
        Completes (.tanapprox F) s F
          (fun j => if onFast = true ∧ tablePresent k .tanA = true then ratio (laneA s F j)
            else precise (laneA s F j)) (noResult F)

/-- ATAN completes: `z·(1 + s·H(s))` for |x| ≤ 1, and `±π/2` less that of 1/x otherwise, -π/2 for x < -1 and for a NaN
(R230, R232, R233); the evaluator and its fusing are written out (R100, R170, R171), with 8 coefficients in the precise table
and 4 in the approximate one. ATAN2 completes with the table of `AtanTwoRows` (R237), on every path, and the arctangent in its
last row is ATAN's. -/
def Obligations.AtanResult : Prop :=
  ∀ (F : Fmt) (apx sb : Bool) (s : State),
    let k := s.krom F
    let onFast : Bool := if F = .f32 then s.cap.getLsbD 0 else s.cap.getLsbD 2
    let fu : Bool := onFast && s.cap.getLsbD 2
    let mad := fun a b c : Lane F => if fu = true then ffma F a b c else fadd F (fmul F a b) c
    let poly := fun (t : TableId) (n : Nat) (m : Lane F) =>
      mad ((List.range (n - 1)).foldr (fun i acc => mad acc m (coef k t i)) (coef k t (n - 1))) m (constLane F 1)
    let series := fun z : Lane F =>
      fmul F (if apx = true ∧ tablePresent k .atanA = true then poly .atanA 4 (fmul F z z)
        else poly .atanP 8 (fmul F z z)) z
    let arc := fun x : Lane F =>
      if fle F (pack F false (magnitude F x)) (constLane F 1) = true then series x
      else fsub F (if flt F (constLane F 1) x = true then constLane F 4 else flipSign F (constLane F 4))
        (series (fdiv F (constLane F 1) x))
    Completes (.atan F apx) s F (fun j => arc (laneA s F j)) (noResult F) ∧
      Completes (.atan2 F apx sb) s F (fun j => atan2Of F fu k apx (laneA s F j) (laneB s F sb j)) (noResult F) ∧
      ∀ x : Lane F, atanOf F fu k apx x = arc x

/-- LDCONST completes with the whole entry that the table of R44 gives for its IDX. That `exec` of an LDCONST with IDX above
22, a command no word decodes to, answers as an illegal command is the model's choice, log entry 14. -/
def Obligations.ConstantRomResult : Prop :=
  ∀ (F : Fmt) (s : State),
    let every := fun (n p32 p64 : Nat) =>
      Completes (.ldconst F (BitVec.ofNat 7 n)) s F
        (fun _ => BitVec.ofNat F.width (if F = .f32 then p32 else p64)) (noResult F)
    let single := fun (n p32 p64 : Nat) (l : Fin 4) =>
      Completes (.ldconst F (BitVec.ofNat 7 n)) s F
        (fun j => if j = l then BitVec.ofNat F.width (if F = .f32 then p32 else p64) else 0) (noResult F)
    every 0 0x00000000 0x0000000000000000 ∧ every 1 0x3F800000 0x3FF0000000000000 ∧
      every 2 0xBF800000 0xBFF0000000000000 ∧ every 3 0x40490FDB 0x400921FB54442D18 ∧
      every 4 0x3FC90FDB 0x3FF921FB54442D18 ∧ every 5 0x3F490FDB 0x3FE921FB54442D18 ∧
      every 6 0x40C90FDB 0x401921FB54442D18 ∧ every 7 0x3EA2F983 0x3FD45F306DC9C883 ∧
      every 8 0x3E22F983 0x3FC45F306DC9C883 ∧ every 9 0x4016CBE4 0x4002D97C7F3321D2 ∧
      every 10 0x80000000 0x8000000000000000 ∧ every 11 0x7FFFFFFF 0x7FFFFFFFFFFFFFFF ∧
      every 12 0xFFFFFFFF 0xFFFFFFFFFFFFFFFF ∧ single 13 0xFFFFFFFF 0xFFFFFFFFFFFFFFFF 0 ∧
      single 14 0xFFFFFFFF 0xFFFFFFFFFFFFFFFF 1 ∧ single 15 0xFFFFFFFF 0xFFFFFFFFFFFFFFFF 2 ∧
      single 16 0xFFFFFFFF 0xFFFFFFFFFFFFFFFF 3 ∧ single 17 0x3F800000 0x3FF0000000000000 0 ∧
      single 18 0x3F800000 0x3FF0000000000000 1 ∧ single 19 0x3F800000 0x3FF0000000000000 2 ∧
      single 20 0x3F800000 0x3FF0000000000000 3 ∧ every 21 0x34000000 0x3CB0000000000000 ∧
      every 22 0x80000000 0x8000000000000000 ∧
      ∀ idx : BitVec 7, 22 < idx.toNat → AnsweredIllegal s (exec (.ldconst F idx) s)

/-- LDCOEF completes with row 2t + h of the coefficient ROM (R49): the coefficients 4h to 4h + 3 of table t, +0 where the
table has none or is absent. That `exec` of an LDCOEF with IDX above 17, a command no word decodes to, answers as an illegal
command is the model's choice, log entry 14. -/
def Obligations.CoefficientRomResult : Prop :=
  ∀ (F : Fmt) (s : State), coefRomWf (s.krom F) = true →
    (∀ (t : TableId) (half : Fin 2),
        Completes (.ldcoef F (BitVec.ofNat 7 (2 * tableNumber t + half))) s F
          (fun j =>
            let k := 4 * half.val + j.val
            if tablePresent (s.krom F) t = true ∧ k < termCount t then coef (s.krom F) t k else 0) (noResult F)) ∧
      ∀ idx : BitVec 7, 17 < idx.toNat → AnsweredIllegal s (exec (.ldcoef F idx) s)

/-- RDCAP and RDSTAT complete with the register, zero-extended, in lane 0 and zeros elsewhere; RDSTAT does not clear
`STATUS` (R252, R253). -/
def Obligations.RegisterResult : Prop :=
  ∀ (F : Fmt) (s : State),
    Completes (.rdcap F) s F (fun j => if j = 0 then s.cap.setWidth F.width else 0) (noResult F) ∧
      Completes (.rdstat F) s F (fun j => if j = 0 then s.status.setWidth F.width else 0) (noResult F)

/-! ### The floating-point primitives (R102 to R107) -/

/-- The sum and the difference of finite lanes are the exact ones, rounded once to nearest even; an exact zero sum is +0
unless both lanes are negative zeros, and an exact zero difference is +0 unless it is (-0) - (+0) (R103, R107). With an
infinity, where the operation is valid, the infinity stays, its sign flipped when it is the second operand of the
difference (R107). -/
def Obligations.SumRounded : Prop :=
  ∀ (F : Fmt) (a b : Lane F),
    (isFinite F a = true → isFinite F b = true →
      RoundsTo F ((laneValue F a + laneValue F b : ℚ) : ℝ) (fadd F a b) ∧
        RoundsTo F ((laneValue F a - laneValue F b : ℚ) : ℝ) (fsub F a b) ∧
        (laneValue F a + laneValue F b = 0 → fadd F a b = zero F (signbit F a && signbit F b)) ∧
        (laneValue F a - laneValue F b = 0 → fsub F a b = zero F (signbit F a && !signbit F b))) ∧
    (isInf F a = true → isFinite F b = true → fadd F a b = a ∧ fadd F b a = a ∧ fsub F a b = a ∧
      fsub F b a = flipSign F a) ∧
    (isInf F a = true → isInf F b = true → signbit F a = signbit F b → fadd F a b = a) ∧
    (isInf F a = true → isInf F b = true → signbit F a ≠ signbit F b → fsub F a b = a)

/-- The product of finite lanes, and the quotient by a nonzero one, are the exact ones rounded once to nearest even, with the
exclusive-or of the signs, subnormal and zero results included (R103, R104, R107). Where the operation is valid, a product
with an infinity, an infinity divided, and a lane that is not zero divided by a zero are the infinity of that sign, and a
finite lane divided by an infinity is the zero of that sign (R107). -/
def Obligations.ProductRounded : Prop :=
  ∀ (F : Fmt) (a b : Lane F),
    (isFinite F a = true → isFinite F b = true →
      RoundsTo F ((laneValue F a * laneValue F b : ℚ) : ℝ) (fmul F a b) ∧
        signbit F (fmul F a b) = (signbit F a ^^ signbit F b) ∧
        (isZero F b = false →
          RoundsTo F ((laneValue F a / laneValue F b : ℚ) : ℝ) (fdiv F a b) ∧
            signbit F (fdiv F a b) = (signbit F a ^^ signbit F b))) ∧
    (isInf F a = true → isNaN F b = false → isZero F b = false →
      fmul F a b = infinity F (signbit F a ^^ signbit F b) ∧ fmul F b a = infinity F (signbit F a ^^ signbit F b)) ∧
    (isInf F a = true → isFinite F b = true →
      fdiv F a b = infinity F (signbit F a ^^ signbit F b) ∧ fdiv F b a = zero F (signbit F a ^^ signbit F b)) ∧
    (isNaN F a = false → isZero F a = false → isZero F b = true →
      fdiv F a b = infinity F (signbit F a ^^ signbit F b))

/-- The fused multiply-add of finite lanes is `a·b + c`, exact and rounded once; an exact zero is +0 unless `a·b` and `c` are
both negative zeros (R107). Where the operation is valid, a product with an infinity gives the infinity of the product's sign,
and a finite product with an infinite `c` gives `c` (R107). -/
def Obligations.FusedRounded : Prop :=
  ∀ (F : Fmt) (a b c : Lane F),
    (isFinite F a = true → isFinite F b = true → isFinite F c = true →
      RoundsTo F ((laneValue F a * laneValue F b + laneValue F c : ℚ) : ℝ) (ffma F a b c) ∧
        (laneValue F a * laneValue F b + laneValue F c = 0 →
          ffma F a b c = zero F ((signbit F a ^^ signbit F b) && signbit F c))) ∧
    (isInf F a = true → isNaN F b = false → isZero F b = false → isNaN F c = false →
      (isInf F c = true → signbit F c = (signbit F a ^^ signbit F b)) →
        ffma F a b c = infinity F (signbit F a ^^ signbit F b) ∧
          ffma F b a c = infinity F (signbit F a ^^ signbit F b)) ∧
    (isFinite F a = true → isFinite F b = true → isInf F c = true → ffma F a b c = c)

/-- The square root of a finite lane that is not below zero is the real one, rounded to nearest even; the root of ±0 and of
+∞ is the operand itself (R107). -/
def Obligations.RootRounded : Prop :=
  ∀ (F : Fmt) (a : Lane F),
    (isFinite F a = true → signbit F a = false ∨ isZero F a = true →
      RoundsTo F (Real.sqrt ((laneValue F a : ℚ) : ℝ)) (fsqrt F a)) ∧
    (isZero F a = true → fsqrt F a = a) ∧
    (isInf F a = true → signbit F a = false → fsqrt F a = a)

/-- ROUND's primitive gives the nearest integral value, ties to the even one, and TRUNC's the nearest toward zero, each with
the operand's sign; ±0 and ±∞ are returned unchanged (R107, R120, R121). -/
def Obligations.IntegralRounded : Prop :=
  ∀ (F : Fmt) (a : Lane F),
    (isFinite F a = true →
      (isFinite F (rintEven F a) = true ∧ signbit F (rintEven F a) = signbit F a ∧
        ∃ n : ℤ, laneValue F (rintEven F a) = n ∧ |laneValue F a - n| ≤ 1 / 2 ∧
          (|laneValue F a - n| = 1 / 2 → Even n)) ∧
      (isFinite F (rintZero F a) = true ∧ signbit F (rintZero F a) = signbit F a ∧
        ∃ n : ℤ, laneValue F (rintZero F a) = n ∧ |(n : ℚ)| ≤ |laneValue F a| ∧ |laneValue F a| < |(n : ℚ)| + 1)) ∧
    (isZero F a = true ∨ isInf F a = true → rintEven F a = a ∧ rintZero F a = a)

/-- R106: an invalid operation with no NaN operand returns the default NaN, 0xFFC00000 or 0xFFF8000000000000. Beside it, the
NaN operands of R105: an arithmetic primitive returns the first NaN operand in the written order, quieted (`quiet_F` sets the
quiet bit and keeps every other bit). That `fsub` keeps its second operand's own sign is log entry 12. -/
def Obligations.NanRules : Prop :=
  defaultNaN .f32 = 0xFFC00000#32 ∧ defaultNaN .f64 = 0xFFF8000000000000#64 ∧
    ∀ (F : Fmt) (a b c : Lane F),
      (isNaN F a = true →
        fadd F a b = quiet F a ∧ fsub F a b = quiet F a ∧ fmul F a b = quiet F a ∧ fdiv F a b = quiet F a ∧
          fsqrt F a = quiet F a ∧ ffma F a b c = quiet F a ∧ rintEven F a = quiet F a ∧ rintZero F a = quiet F a) ∧
      (isNaN F a = false → isNaN F b = true →
        fadd F a b = quiet F b ∧ fsub F a b = quiet F b ∧ fmul F a b = quiet F b ∧ fdiv F a b = quiet F b ∧
          ffma F a b c = quiet F b) ∧
      (isNaN F a = false → isNaN F b = false → isNaN F c = true → ffma F a b c = quiet F c) ∧
      (∀ k < F.width, (quiet F a).getLsbD k = (a.getLsbD k || k == F.fracBits - 1)) ∧
      (isInf F a = true → isInf F b = true → signbit F a ≠ signbit F b → fadd F a b = defaultNaN F) ∧
      (isInf F a = true → isInf F b = true → signbit F a = signbit F b → fsub F a b = defaultNaN F) ∧
      (isZero F a = true → isInf F b = true →
        fmul F a b = defaultNaN F ∧ fmul F b a = defaultNaN F ∧
          (isNaN F c = false → ffma F a b c = defaultNaN F ∧ ffma F b a c = defaultNaN F)) ∧
      (isZero F a = true → isZero F b = true → fdiv F a b = defaultNaN F) ∧
      (isInf F a = true → isInf F b = true → fdiv F a b = defaultNaN F) ∧
      (isNaN F a = false → signbit F a = true → isZero F a = false → fsqrt F a = defaultNaN F) ∧
      (isInf F a = true → isNaN F b = false → isZero F b = false → isInf F c = true →
        signbit F c ≠ (signbit F a ^^ signbit F b) → ffma F a b c = defaultNaN F ∧ ffma F b a c = defaultNaN F)

/-- The ordered predicates compare the values of finite lanes, put ±∞ at the two ends, where each infinity equals itself and
nothing else, and are false on a NaN; `fle` is `flt` or `feq` (R107). -/
def Obligations.CompareIsByValue : Prop :=
  ∀ (F : Fmt) (a b : Lane F),
    (isFinite F a = true → isFinite F b = true →
      (feq F a b = true ↔ laneValue F a = laneValue F b) ∧ (flt F a b = true ↔ laneValue F a < laneValue F b) ∧
        (fle F a b = true ↔ laneValue F a ≤ laneValue F b)) ∧
    (isFinite F a = true → flt F a (infinity F false) = true ∧ flt F (infinity F true) a = true ∧
      flt F (infinity F false) a = false ∧ flt F a (infinity F true) = false ∧
      ∀ s : Bool, feq F a (infinity F s) = false ∧ feq F (infinity F s) a = false) ∧
    (∀ s t : Bool, feq F (infinity F s) (infinity F t) = (s == t) ∧ flt F (infinity F s) (infinity F t) = (s && !t) ∧
      fle F (infinity F s) (infinity F t) = (s || !t)) ∧
    fle F a b = (flt F a b || feq F a b) ∧
    (isNaN F a = true ∨ isNaN F b = true → feq F a b = false ∧ flt F a b = false ∧ fle F a b = false)

/-! ### Properties of the commands' lanes -/

/-- R135: for finite lo ≤ hi, CLAMP's result lies between them for every v, NaN and ±∞ included; ABS of ABS is ABS, bit for
bit. -/
def Obligations.ClampAndAbs : Prop :=
  (∀ (F : Fmt) (v lo hi : Lane F), isFinite F lo = true → isFinite F hi = true → fle F lo hi = true →
      fle F lo (clampLane F v lo hi) = true ∧ fle F (clampLane F v lo hi) hi = true) ∧
    ∀ (F : Fmt) (v : Lane F), absLane F (absLane F v) = absLane F v

/-- The rows of REM's table for zeros, infinities and NaNs. -/
def Obligations.RemainderTable : Prop :=
  ∀ (F : Fmt) (a b : Lane F),
    (isFinite F a = true → isZero F b = true → remLane F a b = defaultNaN F) ∧
      (isFinite F a = true → isInf F b = true → remLane F a b = defaultNaN F) ∧
      (isInf F a = true → isNaN F b = false → remLane F a b = defaultNaN F) ∧
      (isZero F a = true → isFinite F b = true → isZero F b = false → remLane F a b = zero F false) ∧
      (isNaN F a = true → remLane F a b = quiet F a) ∧
      (isNaN F a = false → isNaN F b = true → remLane F a b = quiet F b)

/-- The reciprocal estimates and the rows of R136: those with fixed values, and those with a sign, are kept. Where the table
gives an error bound, the estimate keeps it or is the exact rounded result: that the exact result, the spec's reference choice,
stands in where the free value breaks the bound is the model's choice, log entry 10. -/
def Obligations.EstimateLimits : Prop :=
  ∀ (F : Fmt) (a : Lane F),
    (isZero F a = true → rcpEst F a = infinity F (signbit F a) ∧ rsqrtEst F a = infinity F (signbit F a)) ∧
      (isInf F a = true → rcpEst F a = zero F (signbit F a) ∧
        rsqrtEst F a = if signbit F a = true then defaultNaN F else zero F false) ∧
      (isNaN F a = true → isNaN F (rcpEst F a) = true ∧ isNaN F (rsqrtEst F a) = true) ∧
      (isFinite F a = true → isZero F a = false → signbit F (rcpEst F a) = signbit F a) ∧
      (isFinite F a = true → reciprocalNormal F a = true → rcpEst F a = exactRcp F a ∨
        (isFinite F (rcpEst F a) = true ∧
          |laneValue F (rcpEst F a) - 1 / laneValue F a| * Config.estRelErrDen ≤
            Config.estRelErrNum * |1 / laneValue F a|)) ∧
      (isFinite F a = true → isZero F a = false → signbit F a = true → rsqrtEst F a = defaultNaN F) ∧
      (isFinite F a = true → isZero F a = false → signbit F a = false → rsqrtEst F a = exactRsqrt F a ∨
        (isFinite F (rsqrtEst F a) = true ∧ signbit F (rsqrtEst F a) = false ∧
          |((laneValue F (rsqrtEst F a) : ℚ) : ℝ) - 1 / Real.sqrt ((laneValue F a : ℚ) : ℝ)| * Config.estRelErrDen ≤
            Config.estRelErrNum * (1 / Real.sqrt ((laneValue F a : ℚ) : ℝ))))

/-- R194: the special values of the reference sine and cosine. -/
def Obligations.ReferenceSpecials : Prop :=
  ∀ (F : Fmt) (x : Lane F),
    (isZero F x = true → refSin F x = x ∧ refCos F x = constLane F 1) ∧
      (isInf F x = true → refSin F x = defaultNaN F ∧ refCos F x = defaultNaN F) ∧
      (isNaN F x = true → refSin F x = quiet F x ∧ refCos F x = quiet F x)

/-- Constraint 2 of R193: for every finite lane the reference sine and cosine are finite and less than 1e-6 from the exact
functions of the lane's value, whatever the platform's functions are. That they are the correctly rounded functions where the
free value breaks the bound is the model's choice, log entry 8. -/
def Obligations.ReferenceWithinBound : Prop :=
  ∀ (F : Fmt) (x : Lane F), isFinite F x = true →
    (isFinite F (refSin F x) = true ∧
      |((laneValue F (refSin F x) : ℚ) : ℝ) - Real.sin ((laneValue F x : ℚ) : ℝ)| < 1 / 10 ^ 6) ∧
    (isFinite F (refCos F x) = true ∧
      |((laneValue F (refCos F x) : ℚ) : ℝ) - Real.cos ((laneValue F x : ℚ) : ℝ)| < 1 / 10 ^ 6)

/-- The corner cases of Mod2Pi (R173) and of the fold (R175). -/
def Obligations.ReductionCorners : Prop :=
  ∀ (F : Fmt) (x : Lane F),
    (isZero F x = true → mod2PiLane F x = zero F false) ∧
      (isInf F x = true → mod2PiLane F x = defaultNaN F) ∧
      (isNaN F x = true → mod2PiLane F x = quiet F x) ∧
      mod2PiLane F (constLane F 3) = constLane F 3 ∧
      mod2PiLane F (flipSign F (constLane F 3)) = flipSign F (constLane F 3) ∧
      (magnitude F x ≤ magnitude F (constLane F 4) → foldLane F x = (x, constLane F 1)) ∧
      (magnitude F x = magnitude F (constLane F 3) → foldLane F x = (zero F false, constLane F 2)) ∧
      (isNaN F x = true → foldLane F x = (quiet F x, constLane F 2)) ∧
      (isInf F x = true → foldLane F x = (infinity F (!signbit F x), constLane F 2))

/-- The corner cases of the fast-path sine and cosine (R195, R196), for every ROM of finite coefficients. -/
def Obligations.SinCosCorners : Prop :=
  ∀ (F : Fmt) (cap : BitVec 3) (k : CoefRom F) (apx : Bool) (x : Lane F), fast F cap = true → FiniteRom k →
    (isZero F x = true → sinLane F cap k apx x = zero F false ∧ cosLane F cap k apx x = constLane F 1) ∧
      (isInf F x = true → sinLane F cap k apx x = defaultNaN F ∧ cosLane F cap k apx x = defaultNaN F) ∧
      (isNaN F x = true → sinLane F cap k apx x = quiet F x ∧ cosLane F cap k apx x = quiet F x) ∧
      sinLane F cap k apx (constLane F 3) = zero F false ∧ cosLane F cap k apx (constLane F 3) = constLane F 2

/-- The corner cases of the tangent (R215, R218) and the arctangent (R233): TAN gives +0 for ±0 whatever the tables hold;
the rest holds for every ROM of finite coefficients. -/
def Obligations.TanAtanCorners : Prop :=
  ∀ (F : Fmt) (fu : Bool) (k : CoefRom F) (apx : Bool) (x : Lane F),
    (isZero F x = true → tanPrecise F fu k x = zero F false) ∧
      (FiniteRom k →
        (isInf F x = true → tanPrecise F fu k x = defaultNaN F) ∧
          (isNaN F x = true → tanPrecise F fu k x = quiet F x) ∧
          (isZero F x = true → atanOf F fu k apx x = x) ∧
          (isInf F x = true → atanOf F fu k apx x = pack F (signbit F x) (magnitude F (constLane F 4))) ∧
          (isNaN F x = true → atanOf F fu k apx x = quiet F x))

/-- R236: the special-value table of ATAN2, row by row, and NaN operands. -/
def Obligations.AtanTwoRows : Prop :=
  ∀ (F : Fmt) (fu : Bool) (k : CoefRom F) (apx : Bool) (y x : Lane F),
    let signed := fun n : Nat => pack F (signbit F y) (magnitude F (constLane F n))
    let row1 := isZero F y = true ∧ (flt F (constLane F 0) x = true ∨ x = zero F false)
    let row2 := isZero F y = true ∧ (flt F x (constLane F 0) = true ∨ x = zero F true)
    let row3 := isZero F x = true ∧ (flt F y (constLane F 0) = true ∨ flt F (constLane F 0) y = true)
    let row4 := isInf F y = true ∧ isInf F x = true
    let row5 := isInf F y = true ∧ isFinite F x = true
    let r := atan2Of F fu k apx y x
    (row1 → r = zero F (signbit F y)) ∧ (row2 → r = signed 3) ∧ (row3 → r = signed 4) ∧
      (row4 → r = if signbit F x = true then signed 9 else signed 5) ∧ (row5 → r = signed 4) ∧
      (¬ row1 → ¬ row2 → ¬ row3 → ¬ row4 → ¬ row5 →
        r = fadd F (atanOf F fu k apx (fdiv F y x))
          (if flt F x (constLane F 0) = true then signed 3 else zero F true)) ∧
      (isNaN F y = true ∨ isNaN F x = true → isNaN F r = true ∧ quiet F r = r)

/-- R241: the five ATan2 identities of the source hold exactly, in every format, tier, `CAP` and coefficient ROM. -/
def Obligations.AtanTwoIdentities : Prop :=
  ∀ (F : Fmt) (apx sb : Bool) (s : State), ∃ t : State, exec (.atan2 F apx sb) s = .next t ∧ ∀ j : Fin 4,
    let y := laneA s F j
    let x := laneB s F sb j
    let r := busLane F t.res0 j
    (y = constLane F 0 → x = constLane F 1 → r = constLane F 0) ∧
      (y = constLane F 1 → x = constLane F 0 → r = constLane F 4) ∧
      (y = constLane F 0 → x = constLane F 2 → r = constLane F 3) ∧
      (y = constLane F 2 → x = constLane F 0 → r = flipSign F (constLane F 4)) ∧
      (y = infinity F false → x = infinity F false → r = constLane F 5)

/-- R42: each numeric constant of the ROM is the exact mathematical value, rounded to nearest even. -/
def Obligations.ConstantsNearest : Prop :=
  ∀ F : Fmt,
    RoundsTo F Real.pi (constLane F 3) ∧ RoundsTo F (Real.pi / 2) (constLane F 4) ∧
      RoundsTo F (Real.pi / 4) (constLane F 5) ∧ RoundsTo F (2 * Real.pi) (constLane F 6) ∧
      RoundsTo F (1 / Real.pi) (constLane F 7) ∧ RoundsTo F (1 / (2 * Real.pi)) (constLane F 8) ∧
      RoundsTo F (3 * Real.pi / 4) (constLane F 9) ∧ laneValue F (constLane F 0) = 0 ∧
      laneValue F (constLane F 1) = 1 ∧ laneValue F (constLane F 2) = -1 ∧
      laneValue F (constLane F 21) = 1 / 2 ^ F.fracBits ∧ laneValue F (constLane F 22) = 0 ∧
      signbit F (constLane F 0) = false ∧ signbit F (constLane F 22) = true

/-- R56: an F64 vector read as F32 gives the halves of its first two lanes and nothing of the others, and an F32 result read
as F64 gives its lanes in pairs and two zero lanes. -/
def Obligations.MixedWidths : Prop :=
  (∀ (v : Bus) (k : Fin 2),
      busLane .f32 v (2 * k.val) = (busLane .f64 v k).extractLsb' 0 32 ∧
        busLane .f32 v (2 * k.val + 1) = (busLane .f64 v k).extractLsb' 32 32) ∧
    (∀ v v' : Bus, v.extractLsb' 0 128 = v'.extractLsb' 0 128 → lanesOfBus .f32 v = lanesOfBus .f32 v') ∧
    ∀ v : Lanes .f32,
      busLane .f64 (busOfLanes v) 0 = v.l1 ++ v.l0 ∧ busLane .f64 (busOfLanes v) 1 = v.l3 ++ v.l2 ∧
        busLane .f64 (busOfLanes v) 2 = 0 ∧ busLane .f64 (busOfLanes v) 3 = 0
end

