-- ==== Sys2Proof/Laws/Encoding.lean ====
section
/-!
SUPPORT. The fields of an encoded word (R70, R83), and when an indexed command is well formed (R74).
-/

namespace Sys2Proof

section fields

variable (opc : BitVec 6) (fmt : Fmt) (apx sb : Bool) (idx : BitVec 7)

@[simp] theorem opcodeOf_commandWord : opcodeOf (commandWord opc fmt apx sb idx) = opc := by
  apply BitVec.eq_of_getLsbD_eq
  intro k hk
  simp only [opcodeOf, commandWord, BitVec.getLsbD_extractLsb', BitVec.getLsbD_append, Nat.zero_add, hk, decide_true,
    Bool.true_and]
  rw [if_pos (by omega), if_pos (by omega), if_pos (by omega), if_pos (by omega), if_pos trivial]

@[simp] theorem fieldsOf_commandWord :
    fieldsOf (commandWord opc fmt apx sb idx) = { fmt := fmt, apx := apx, sb := sb, idx := idx } := by
  have hidx : (commandWord opc fmt apx sb idx).extractLsb' 9 7 = idx := by
    apply BitVec.eq_of_getLsbD_eq
    intro k hk
    simp only [commandWord, BitVec.getLsbD_extractLsb', BitVec.getLsbD_append, hk, decide_true, Bool.true_and]
    rw [if_pos (by omega), if_neg (by omega)]
    congr 1
    omega
  have hfmt : (commandWord opc fmt apx sb idx).getLsbD 6 = bitOfFmt fmt := by
    simp only [commandWord, BitVec.getLsbD_append, BitVec.getLsbD_ofBool]
    simp
  have hapx : (commandWord opc fmt apx sb idx).getLsbD 7 = apx := by
    simp only [commandWord, BitVec.getLsbD_append, BitVec.getLsbD_ofBool]
    simp
  have hsb : (commandWord opc fmt apx sb idx).getLsbD 8 = sb := by
    simp only [commandWord, BitVec.getLsbD_append, BitVec.getLsbD_ofBool]
    simp
  simp only [fieldsOf, hidx, hfmt, hapx, hsb]
  cases fmt <;> rfl

end fields

@[simp] theorem wellFormed_bcast (fmt : Fmt) (idx : BitVec 7) :
    (Instr.bcast fmt idx).wellFormed = true ↔ idx.toNat ≤ 3 := decide_eq_true_iff

@[simp] theorem wellFormed_ldconst (fmt : Fmt) (idx : BitVec 7) :
    (Instr.ldconst fmt idx).wellFormed = true ↔ idx.toNat ≤ 22 := decide_eq_true_iff

@[simp] theorem wellFormed_ldcoef (fmt : Fmt) (idx : BitVec 7) :
    (Instr.ldcoef fmt idx).wellFormed = true ↔ idx.toNat ≤ 17 := decide_eq_true_iff

end Sys2Proof
end

