-- ==== Sys2Proof/Laws/Lanes.lean ====
section
/-!
SUPPORT. Lanes on the buses (R28, R55): what a lane of a packed bus is, and the masks and the bitwise select of R107.
-/

namespace Sys2Proof.Machine

/-! ### Vectors -/

@[simp] theorem Lanes.map_get {F : Fmt} (f : Lane F → Lane F) (a : Lanes F) (j : Fin 4) :
    (a.map f).get j = f (a.get j) := by
  match j with
  | 0 | 1 | 2 | 3 => rfl

@[simp] theorem Lanes.map₂_get {F : Fmt} (f : Lane F → Lane F → Lane F) (a b : Lanes F) (j : Fin 4) :
    (Lanes.map₂ f a b).get j = f (a.get j) (b.get j) := by
  match j with
  | 0 | 1 | 2 | 3 => rfl

@[simp] theorem Lanes.map₃_get {F : Fmt} (f : Lane F → Lane F → Lane F → Lane F) (a b c : Lanes F) (j : Fin 4) :
    (Lanes.map₃ f a b c).get j = f (a.get j) (b.get j) (c.get j) := by
  match j with
  | 0 | 1 | 2 | 3 => rfl

@[simp] theorem Lanes.all_get {F : Fmt} (x : Lane F) (j : Fin 4) : (Lanes.all x).get j = x := by
  match j with
  | 0 | 1 | 2 | 3 => rfl

@[simp] theorem lanesOfBus_get (F : Fmt) (v : Bus) (j : Fin 4) : (lanesOfBus F v).get j = busLane F v j := by
  match j with
  | 0 | 1 | 2 | 3 => rfl

/-- Scalar broadcast puts lane 0 everywhere and changes nothing otherwise (R76). -/
@[simp] theorem scalarBroadcast_get {F : Fmt} (sb : Bool) (v : Lanes F) (j : Fin 4) :
    (scalarBroadcast sb v).get j = v.get (if sb then 0 else j) := by
  cases sb
  · rfl
  · match j with
    | 0 | 1 | 2 | 3 => rfl

/-! ### Packing four lanes -/

/-- A bit of four packed lanes, lane by lane (R28). -/
theorem busOfLanes_getLsbD {F : Fmt} (v : Lanes F) (i : Nat) (hi : i < 256) :
    (busOfLanes v).getLsbD i =
      if i < F.width then v.l0.getLsbD i
      else if i < 2 * F.width then v.l1.getLsbD (i - F.width)
      else if i < 3 * F.width then v.l2.getLsbD (i - 2 * F.width)
      else v.l3.getLsbD (i - 3 * F.width) := by
  have h2 : F.width + F.width = 2 * F.width := by omega
  have h3 : F.width + 2 * F.width = 3 * F.width := by omega
  simp only [busOfLanes, BitVec.getLsbD_setWidth, BitVec.getLsbD_append, hi, decide_true, Bool.true_and, h2, h3]
  by_cases h₁ : i < F.width
  · rw [if_pos (by omega), if_pos (by omega), if_pos h₁, if_pos h₁]
  by_cases h₂ : i < 2 * F.width
  · rw [if_pos (by omega), if_pos h₂, if_neg h₁, if_neg h₁, if_pos h₂]
  by_cases h₃ : i < 3 * F.width
  · rw [if_pos h₃, if_neg h₂, if_neg h₁, if_neg h₂, if_pos h₃]
  · rw [if_neg h₃, if_neg h₁, if_neg h₂, if_neg h₃]

/-- Lane `j` of four packed lanes is lane `j` (R28). -/
@[simp] theorem busLane_busOfLanes {F : Fmt} (v : Lanes F) (j : Fin 4) : busLane F (busOfLanes v) j = v.get j := by
  have hw : 4 * F.width ≤ 256 := by cases F <;> decide
  apply BitVec.eq_of_getLsbD_eq
  intro i hi
  have hlt : F.width * j.val + i < 256 := by
    have := Nat.mul_le_mul_left F.width (Nat.le_of_lt_succ j.isLt)
    omega
  simp only [busLane, BitVec.getLsbD_extractLsb', hi, decide_true, Bool.true_and, busOfLanes_getLsbD v _ hlt]
  match j with
  | 0 => simp (disch := omega) [Lanes.get, if_pos]
  | 1 => simp (disch := omega) [Lanes.get, if_pos]
  | 2 => simp (disch := omega) [Lanes.get, if_pos, Nat.mul_comm F.width 2, show ¬ 2 * F.width + i < F.width by omega]
  | 3 =>
    simp (disch := omega) [Lanes.get, Nat.mul_comm F.width 3, show ¬ 3 * F.width + i < F.width by omega,
      show ¬ 3 * F.width + i < 2 * F.width by omega]

/-- Four F32 lanes leave bits 255:128 of the bus 0 (R28). -/
@[simp] theorem busOfLanes_f32_upper (v : Lanes .f32) : (busOfLanes v).extractLsb' 128 128 = 0 := by
  apply BitVec.eq_of_getLsbD_eq
  intro i hi
  have hlt : 128 + i < 256 := by omega
  simp (disch := omega) only [BitVec.getLsbD_extractLsb', hi, decide_true, Bool.true_and, busOfLanes_getLsbD v _ hlt,
    Fmt.width, if_neg]
  simpa using BitVec.getLsbD_of_ge v.l3 (128 + i - 96) (by simp only [Fmt.width]; omega)

/-- Zero lanes pack to the zero bus. -/
@[simp] theorem busLane_zero (F : Fmt) (j : Fin 4) : busLane F 0 j = 0 := by simp [busLane]

/-! ### Masks and select (R107, R140) -/

/-- A mask lane selects one of the two lanes whole. -/
@[simp] theorem sel_mask (F : Fmt) (p : Bool) (a b : Lane F) : sel F (mask F p) a b = if p then a else b := by
  cases p <;> simp [sel, mask]

/-- Two masks joined by AND are the mask of both. -/
@[simp] theorem mask_and_mask (F : Fmt) (p q : Bool) : mask F p &&& mask F q = mask F (p && q) := by
  cases p <;> cases q <;> simp [mask]

end Sys2Proof.Machine
end

