-- ==== Sys2Proof/Laws/State.lean ====
section
/-!
SUPPORT. The fields of the state after each update of Machine/Ops.lean and Machine/Channel.lean: one lemma per field per
update, so that no later proof unfolds a record update.
-/

namespace Sys2Proof.Machine

/-! ### `State.respond` -/

section respond

variable (s : State) (code : BitVec 2) (r0 r1 : Bus)

@[simp] theorem State.respond_cap : (s.respond code r0 r1).cap = s.cap := rfl
@[simp] theorem State.respond_status : (s.respond code r0 r1).status = s.status := rfl
@[simp] theorem State.respond_krom32 : (s.respond code r0 r1).krom32 = s.krom32 := rfl
@[simp] theorem State.respond_krom64 : (s.respond code r0 r1).krom64 = s.krom64 := rfl
@[simp] theorem State.respond_q : (s.respond code r0 r1).q = s.q := rfl
@[simp] theorem State.respond_cmdReady : (s.respond code r0 r1).cmdReady = s.cmdReady := rfl
@[simp] theorem State.respond_rspValid : (s.respond code r0 r1).rspValid = true := rfl
@[simp] theorem State.respond_rspCode : (s.respond code r0 r1).rspCode = code := rfl
@[simp] theorem State.respond_res0 : (s.respond code r0 r1).res0 = r0 := rfl
@[simp] theorem State.respond_res1 : (s.respond code r0 r1).res1 = r1 := rfl
@[simp] theorem State.respond_inputs : (s.respond code r0 r1).inputs = s.inputs := rfl
@[simp] theorem State.respond_idleDraws : (s.respond code r0 r1).idleDraws = s.idleDraws := rfl

end respond

/-! ### `popInputs`, `ageQueue` and `setReady` -/

section queue

variable (s : State) (depth : Nat)

@[simp] theorem popInputs_cap : (popInputs s).cap = s.cap := rfl
@[simp] theorem popInputs_status : (popInputs s).status = s.status := rfl
@[simp] theorem popInputs_krom32 : (popInputs s).krom32 = s.krom32 := rfl
@[simp] theorem popInputs_krom64 : (popInputs s).krom64 = s.krom64 := rfl
@[simp] theorem popInputs_q : (popInputs s).q = s.q := rfl
@[simp] theorem popInputs_cmdReady : (popInputs s).cmdReady = s.cmdReady := rfl
@[simp] theorem popInputs_rspValid : (popInputs s).rspValid = s.rspValid := rfl
@[simp] theorem popInputs_rspCode : (popInputs s).rspCode = s.rspCode := rfl
@[simp] theorem popInputs_res0 : (popInputs s).res0 = s.res0 := rfl
@[simp] theorem popInputs_res1 : (popInputs s).res1 = s.res1 := rfl
@[simp] theorem popInputs_inputs : (popInputs s).inputs = s.inputs.tail := rfl
@[simp] theorem popInputs_idleDraws : (popInputs s).idleDraws = s.idleDraws := rfl

@[simp] theorem ageQueue_cap : (ageQueue s).cap = s.cap := rfl
@[simp] theorem ageQueue_status : (ageQueue s).status = s.status := rfl
@[simp] theorem ageQueue_krom32 : (ageQueue s).krom32 = s.krom32 := rfl
@[simp] theorem ageQueue_krom64 : (ageQueue s).krom64 = s.krom64 := rfl
@[simp] theorem ageQueue_q : (ageQueue s).q = s.q.map fun e => { e with wait := e.wait - 1 } := rfl
@[simp] theorem ageQueue_cmdReady : (ageQueue s).cmdReady = s.cmdReady := rfl
@[simp] theorem ageQueue_rspValid : (ageQueue s).rspValid = s.rspValid := rfl
@[simp] theorem ageQueue_rspCode : (ageQueue s).rspCode = s.rspCode := rfl
@[simp] theorem ageQueue_res0 : (ageQueue s).res0 = s.res0 := rfl
@[simp] theorem ageQueue_res1 : (ageQueue s).res1 = s.res1 := rfl
@[simp] theorem ageQueue_inputs : (ageQueue s).inputs = s.inputs := rfl
@[simp] theorem ageQueue_idleDraws : (ageQueue s).idleDraws = s.idleDraws := rfl

@[simp] theorem setReady_cap : (setReady depth s).cap = s.cap := rfl
@[simp] theorem setReady_status : (setReady depth s).status = s.status := rfl
@[simp] theorem setReady_krom32 : (setReady depth s).krom32 = s.krom32 := rfl
@[simp] theorem setReady_krom64 : (setReady depth s).krom64 = s.krom64 := rfl
@[simp] theorem setReady_q : (setReady depth s).q = s.q := rfl
@[simp] theorem setReady_cmdReady : (setReady depth s).cmdReady = decide (s.q.length < depth) := rfl
@[simp] theorem setReady_rspValid : (setReady depth s).rspValid = s.rspValid := rfl
@[simp] theorem setReady_rspCode : (setReady depth s).rspCode = s.rspCode := rfl
@[simp] theorem setReady_res0 : (setReady depth s).res0 = s.res0 := rfl
@[simp] theorem setReady_res1 : (setReady depth s).res1 = s.res1 := rfl
@[simp] theorem setReady_inputs : (setReady depth s).inputs = s.inputs := rfl
@[simp] theorem setReady_idleDraws : (setReady depth s).idleDraws = s.idleDraws := rfl

end queue

/-! ### The updates with a condition: `takeResponse`, `acceptCommand`, `driveIdle` -/

section conditional

variable (s : State) (p : Pins) (lat : BitVec 3 → Word → Nat)

@[simp] theorem takeResponse_cap : (takeResponse p s).cap = s.cap := by unfold takeResponse; split <;> rfl
@[simp] theorem takeResponse_status :
    (takeResponse p s).status = if responseTaken p s then statusAfter s.rspCode s.status else s.status := by
  unfold takeResponse; split <;> rfl
@[simp] theorem takeResponse_krom32 : (takeResponse p s).krom32 = s.krom32 := by unfold takeResponse; split <;> rfl
@[simp] theorem takeResponse_krom64 : (takeResponse p s).krom64 = s.krom64 := by unfold takeResponse; split <;> rfl
@[simp] theorem takeResponse_q : (takeResponse p s).q = if responseTaken p s then s.q.tail else s.q := by
  unfold takeResponse; split <;> rfl
@[simp] theorem takeResponse_cmdReady : (takeResponse p s).cmdReady = s.cmdReady := by
  unfold takeResponse; split <;> rfl
@[simp] theorem takeResponse_rspValid : (takeResponse p s).rspValid = (s.rspValid && !p.rspReady) := by
  unfold takeResponse responseTaken; cases h : s.rspValid <;> cases p.rspReady <;> simp [h]
@[simp] theorem takeResponse_rspCode : (takeResponse p s).rspCode = s.rspCode := by unfold takeResponse; split <;> rfl
@[simp] theorem takeResponse_res0 : (takeResponse p s).res0 = s.res0 := by unfold takeResponse; split <;> rfl
@[simp] theorem takeResponse_res1 : (takeResponse p s).res1 = s.res1 := by unfold takeResponse; split <;> rfl
@[simp] theorem takeResponse_inputs : (takeResponse p s).inputs = s.inputs := by unfold takeResponse; split <;> rfl
@[simp] theorem takeResponse_idleDraws : (takeResponse p s).idleDraws = s.idleDraws := by
  unfold takeResponse; split <;> rfl

@[simp] theorem acceptCommand_cap : (acceptCommand lat p s).cap = s.cap := by unfold acceptCommand; split <;> rfl
@[simp] theorem acceptCommand_status : (acceptCommand lat p s).status = s.status := by
  unfold acceptCommand; split <;> rfl
@[simp] theorem acceptCommand_krom32 : (acceptCommand lat p s).krom32 = s.krom32 := by
  unfold acceptCommand; split <;> rfl
@[simp] theorem acceptCommand_krom64 : (acceptCommand lat p s).krom64 = s.krom64 := by
  unfold acceptCommand; split <;> rfl
@[simp] theorem acceptCommand_q :
    (acceptCommand lat p s).q = s.q ++
      if commandAccepted p s then [{ cmd := commandOfPins p, wait := lat s.cap p.cmdWord - 1 }] else [] := by
  unfold acceptCommand; split <;> simp
@[simp] theorem acceptCommand_cmdReady : (acceptCommand lat p s).cmdReady = s.cmdReady := by
  unfold acceptCommand; split <;> rfl
@[simp] theorem acceptCommand_rspValid : (acceptCommand lat p s).rspValid = s.rspValid := by
  unfold acceptCommand; split <;> rfl
@[simp] theorem acceptCommand_rspCode : (acceptCommand lat p s).rspCode = s.rspCode := by
  unfold acceptCommand; split <;> rfl
@[simp] theorem acceptCommand_res0 : (acceptCommand lat p s).res0 = s.res0 := by unfold acceptCommand; split <;> rfl
@[simp] theorem acceptCommand_res1 : (acceptCommand lat p s).res1 = s.res1 := by unfold acceptCommand; split <;> rfl
@[simp] theorem acceptCommand_inputs : (acceptCommand lat p s).inputs = s.inputs := by
  unfold acceptCommand; split <;> rfl
@[simp] theorem acceptCommand_idleDraws : (acceptCommand lat p s).idleDraws = s.idleDraws := by
  unfold acceptCommand; split <;> rfl

@[simp] theorem driveIdle_cap : (driveIdle s).cap = s.cap := by unfold driveIdle; split <;> rfl
@[simp] theorem driveIdle_status : (driveIdle s).status = s.status := by unfold driveIdle; split <;> rfl
@[simp] theorem driveIdle_krom32 : (driveIdle s).krom32 = s.krom32 := by unfold driveIdle; split <;> rfl
@[simp] theorem driveIdle_krom64 : (driveIdle s).krom64 = s.krom64 := by unfold driveIdle; split <;> rfl
@[simp] theorem driveIdle_q : (driveIdle s).q = s.q := by unfold driveIdle; split <;> rfl
@[simp] theorem driveIdle_cmdReady : (driveIdle s).cmdReady = s.cmdReady := by unfold driveIdle; split <;> rfl
@[simp] theorem driveIdle_rspValid : (driveIdle s).rspValid = s.rspValid := by unfold driveIdle; split <;> rfl
@[simp] theorem driveIdle_inputs : (driveIdle s).inputs = s.inputs := by unfold driveIdle; split <;> rfl

/-- While a response is presented, its outputs are not driven anew (R31). -/
theorem driveIdle_of_rspValid (h : s.rspValid = true) : driveIdle s = s := by simp [driveIdle, h]

end conditional

/-! ### `resetEdge` -/

section reset

variable (s : State) (p : Pins)

@[simp] theorem resetEdge_cap : (resetEdge p s).cap = sanitise p.capIn := by simp [resetEdge]
@[simp] theorem resetEdge_status : (resetEdge p s).status = 0 := by simp [resetEdge]
@[simp] theorem resetEdge_krom32 : (resetEdge p s).krom32 = s.krom32 := by simp [resetEdge]
@[simp] theorem resetEdge_krom64 : (resetEdge p s).krom64 = s.krom64 := by simp [resetEdge]
@[simp] theorem resetEdge_q : (resetEdge p s).q = [] := by simp [resetEdge]
@[simp] theorem resetEdge_cmdReady : (resetEdge p s).cmdReady = false := by simp [resetEdge]
@[simp] theorem resetEdge_rspValid : (resetEdge p s).rspValid = false := by simp [resetEdge]
@[simp] theorem resetEdge_inputs : (resetEdge p s).inputs = s.inputs := by simp [resetEdge]

end reset

/-! ### `placeCommand` -/

section place

variable (s : State) (w : Word)

@[simp] theorem placeCommand_cap : (placeCommand w s).cap = s.cap := rfl
@[simp] theorem placeCommand_status : (placeCommand w s).status = s.status := rfl
@[simp] theorem placeCommand_krom32 : (placeCommand w s).krom32 = s.krom32 := rfl
@[simp] theorem placeCommand_krom64 : (placeCommand w s).krom64 = s.krom64 := rfl
@[simp] theorem placeCommand_q :
    (placeCommand w s).q = { cmd := { s.command with word := w }, wait := 0 } :: s.q.tail := rfl
@[simp] theorem placeCommand_cmdReady : (placeCommand w s).cmdReady = s.cmdReady := rfl
@[simp] theorem placeCommand_rspValid : (placeCommand w s).rspValid = false := rfl
@[simp] theorem placeCommand_rspCode : (placeCommand w s).rspCode = s.rspCode := rfl
@[simp] theorem placeCommand_res0 : (placeCommand w s).res0 = s.res0 := rfl
@[simp] theorem placeCommand_res1 : (placeCommand w s).res1 = s.res1 := rfl
@[simp] theorem placeCommand_idleDraws : (placeCommand w s).idleDraws = s.idleDraws := rfl

end place

end Sys2Proof.Machine
end

