-- ==== Sys2Proof/Laws/Ops.lean ====
section
/-!
SUPPORT. What each shared operation can do, said once: the answers of the commands, and the parts of a rising edge.
-/

namespace Sys2Proof.Machine

/-! ### Answers -/

theorem sameButResponse_respond (s : State) (code : BitVec 2) (r0 r1 : Bus) :
    SameButResponse s (s.respond code r0 r1) :=
  ⟨rfl, rfl, rfl, rfl, rfl, rfl, rfl, rfl⟩

/-- The upper half of a packed F32 bus is 0 (R28). -/
theorem upperZero_busOfLanes {F : Fmt} (v : Lanes F) : UpperZero F (busOfLanes v) := by
  intro h
  subst h
  exact busOfLanes_f32_upper v

theorem upperZero_zero (F : Fmt) : UpperZero F 0 := by
  intro _
  decide

/-- A command that answers with one vector completes with its lanes, RES1 zero. -/
theorem completes_of_answer1 {i : Instr} {s : State} {F : Fmt} {r : Lanes F} (h : exec i s = answer1 s r) :
    Completes i s F r.get (noResult F) :=
  ⟨_, h, sameButResponse_respond _ _ _ _, rfl, rfl, busLane_busOfLanes r, busLane_zero F, upperZero_busOfLanes r,
    upperZero_zero F⟩

/-- A command that answers with two vectors completes with the lanes of both. -/
theorem completes_of_answer2 {i : Instr} {s : State} {F : Fmt} {r r' : Lanes F} (h : exec i s = answer2 s r r') :
    Completes i s F r.get r'.get :=
  ⟨_, h, sameButResponse_respond _ _ _ _, rfl, rfl, busLane_busOfLanes r, busLane_busOfLanes r', upperZero_busOfLanes r,
    upperZero_busOfLanes r'⟩

/-- `Completes` only looks at the lanes. -/
theorem Completes.congr {i : Instr} {s : State} {F : Fmt} {r0 r0' r1 r1' : Fin 4 → Lane F} (h : Completes i s F r0 r1)
    (h0 : ∀ j, r0 j = r0' j) (h1 : ∀ j, r1 j = r1' j) : Completes i s F r0' r1' := by
  obtain rfl : r0 = r0' := funext h0
  obtain rfl : r1 = r1' := funext h1
  exact h

@[simp] theorem opA_get (s : State) (F : Fmt) (j : Fin 4) : (opA s F).get j = laneA s F j := lanesOfBus_get ..

@[simp] theorem opB_get (s : State) (F : Fmt) (sb : Bool) (j : Fin 4) : (opB s F sb).get j = laneB s F sb j := by
  cases sb <;> simp [opB, laneB]

@[simp] theorem opC_get (s : State) (F : Fmt) (sb : Bool) (j : Fin 4) : (opC s F sb).get j = laneC s F sb j := by
  cases sb <;> simp [opC, laneC]

/-- A unary per-lane command completes with its function of A's lanes. -/
theorem completes_of_answerUnary {i : Instr} {s : State} {F : Fmt} {f : Lane F → Lane F}
    (h : exec i s = answerUnary s F f) : Completes i s F (fun j => f (laneA s F j)) (noResult F) :=
  (completes_of_answer1 h).congr (fun j => by simp) fun _ => rfl

/-- A binary per-lane command completes with its function of A's and B's lanes. -/
theorem completes_of_answerBinary {i : Instr} {s : State} {F : Fmt} {sb : Bool} {f : Lane F → Lane F → Lane F}
    (h : exec i s = answerBinary s F sb f) :
    Completes i s F (fun j => f (laneA s F j) (laneB s F sb j)) (noResult F) :=
  (completes_of_answer1 h).congr (fun j => by simp) fun _ => rfl

/-- A ternary per-lane command completes with its function of the three operands' lanes. -/
theorem completes_of_answerTernary {i : Instr} {s : State} {F : Fmt} {sb : Bool}
    {f : Lane F → Lane F → Lane F → Lane F} (h : exec i s = answerTernary s F sb f) :
    Completes i s F (fun j => f (laneA s F j) (laneB s F sb j) (laneC s F sb j)) (noResult F) :=
  (completes_of_answer1 h).congr (fun j => by simp) fun _ => rfl

/-- The response to an illegal command (R261). -/
theorem answeredIllegal_answerIllegal (s : State) : AnsweredIllegal s (answerIllegal s) :=
  ⟨_, rfl, sameButResponse_respond _ _ _ _, rfl, rfl, rfl, rfl⟩

/-! ### The handshakes -/

@[simp] theorem responseTaken_popInputs (p : Pins) (s : State) : responseTaken p (popInputs s) = responseTaken p s := by
  simp [responseTaken]

@[simp] theorem commandAccepted_popInputs (p : Pins) (s : State) :
    commandAccepted p (popInputs s) = commandAccepted p s := by
  simp [commandAccepted]

section handshake

variable (depth : Nat) (lat : BitVec 3 → Word → Nat) (p : Pins) (s : State)

@[simp] theorem handshake_cap : (handshake depth lat p s).cap = s.cap := by simp [handshake]
@[simp] theorem handshake_krom32 : (handshake depth lat p s).krom32 = s.krom32 := by simp [handshake]
@[simp] theorem handshake_krom64 : (handshake depth lat p s).krom64 = s.krom64 := by simp [handshake]
@[simp] theorem handshake_inputs : (handshake depth lat p s).inputs = s.inputs := by simp [handshake]

@[simp] theorem handshake_status :
    (handshake depth lat p s).status = if responseTaken p s then statusAfter s.rspCode s.status else s.status := by
  simp [handshake]

@[simp] theorem handshake_rspValid : (handshake depth lat p s).rspValid = (s.rspValid && !p.rspReady) := by
  simp [handshake]

/-- `Q` after the handshakes: the delivered command gone, the others one edge older, the accepted one at the end. -/
@[simp] theorem handshake_q :
    (handshake depth lat p s).q =
      ((if responseTaken p s then s.q.tail else s.q).map fun e => { e with wait := e.wait - 1 }) ++
        if commandAccepted p s then [{ cmd := commandOfPins p, wait := lat s.cap p.cmdWord - 1 }] else [] := by
  simp [handshake, commandAccepted]

@[simp] theorem handshake_cmdReady :
    (handshake depth lat p s).cmdReady = decide ((handshake depth lat p s).q.length < depth) := by
  simp [handshake]

/-- A response that is not taken is held (R31). -/
theorem handshake_held (h : s.rspValid = true) (hp : p.rspReady = false) :
    (handshake depth lat p s).answer = s.answer := by
  have hv : (setReady depth (acceptCommand lat p (ageQueue (takeResponse p s)))).rspValid = true := by simp [h, hp]
  simp [handshake, driveIdle_of_rspValid _ hv, State.answer]

end handshake

/-! ### The edge -/

/-- When a command is due: it is the oldest of `Q`, its wait is over and no response is presented. -/
theorem dueCommand_eq_some {s : State} {c : Command} (h : dueCommand s = some c) :
    s.rspValid = false ∧ ∃ e rest, s.q = e :: rest ∧ e.wait = 0 ∧ e.cmd = c := by
  unfold dueCommand at h
  split at h
  · cases h
  · next e rest hq =>
    split at h
    · cases h
    · next hc =>
      simp only [Bool.or_eq_true, bne_iff_ne, ne_eq, not_or, Bool.not_eq_true, not_not] at hc
      exact ⟨hc.1, e, rest, hq, hc.2, by simpa using h⟩

/-- What the end of an edge can do. -/
theorem presentDue_cases {s : State} {r : Result} (h : presentDue s = r) :
    (dueCommand s = none ∧ r = .next s) ∨
      (∃ c e, dueCommand s = some c ∧ decode c.word = .error e ∧ r = answerIllegal s) ∨
      ∃ c i, dueCommand s = some c ∧ decode c.word = .ok i ∧ r = exec i s := by
  unfold presentDue at h
  split at h
  · next c hc =>
    unfold runCommand at h
    split at h
    · next i hi => exact .inr (.inr ⟨c, i, hc, hi, h.symm⟩)
    · next e he => exact .inr (.inl ⟨c, e, hc, he, h.symm⟩)
  · next hc => exact .inl ⟨hc, h.symm⟩

/-- What a rising edge can do: reset, or the handshakes and then the due command. -/
theorem edge_cases {depth : Nat} {lat : BitVec 3 → Word → Nat} {s : State} {r : Result} (h : edge depth lat s = r) :
    (s.pins.rstN = false ∧ r = .next (resetEdge s.pins (popInputs s))) ∨
      (s.pins.rstN = true ∧ presentDue (handshake depth lat s.pins (popInputs s)) = r) := by
  unfold edge at h
  cases hr : s.pins.rstN
  · exact .inl ⟨rfl, by simpa [hr] using h.symm⟩
  · exact .inr ⟨rfl, by simpa [hr] using h⟩

end Sys2Proof.Machine
end

