-- ==== Sys2Proof/Laws/Exec.lean ====
section
/-!
SUPPORT. What `exec` answers for each command, as one shared operation, and when two answers are the same: what a proof about
a command cites, so that it unfolds neither `exec` nor a meaning.
-/

namespace Sys2Proof.Machine

/-! ### Two answers with the same lanes -/

theorem sameAnswer_respond (s s' : State) (code : BitVec 2) (r0 r1 : Bus) :
    SameAnswer (.next (s.respond code r0 r1)) (.next (s'.respond code r0 r1)) :=
  ⟨_, _, rfl, rfl, rfl, rfl, rfl⟩

theorem sameAnswer_answerIllegal (s s' : State) : SameAnswer (answerIllegal s) (answerIllegal s') :=
  sameAnswer_respond s s' _ _ _

theorem sameAnswer_answer1 (s s' : State) {F : Fmt} {r r' : Lanes F} (h : r = r') :
    SameAnswer (answer1 s r) (answer1 s' r') := by
  subst h
  exact sameAnswer_respond s s' _ _ _

theorem sameAnswer_answer2 (s s' : State) {F : Fmt} {r0 r0' r1 r1' : Lanes F} (h0 : r0 = r0') (h1 : r1 = r1') :
    SameAnswer (answer2 s r0 r1) (answer2 s' r0' r1') := by
  subst h0 h1
  exact sameAnswer_respond s s' _ _ _

theorem sameAnswer_answerUnary {s s' : State} {F : Fmt} {f f' : Lane F → Lane F} (ha : opA s F = opA s' F)
    (hf : f = f') : SameAnswer (answerUnary s F f) (answerUnary s' F f') :=
  sameAnswer_answer1 s s' (by rw [ha, hf])

theorem sameAnswer_answerBinary {s s' : State} {F : Fmt} {sb : Bool} {f f' : Lane F → Lane F → Lane F}
    (ha : opA s F = opA s' F) (hb : opB s F sb = opB s' F sb) (hf : f = f') :
    SameAnswer (answerBinary s F sb f) (answerBinary s' F sb f') :=
  sameAnswer_answer1 s s' (by rw [ha, hb, hf])

theorem sameAnswer_answerTernary {s s' : State} {F : Fmt} {sb : Bool} {f f' : Lane F → Lane F → Lane F → Lane F}
    (ha : opA s F = opA s' F) (hb : opB s F sb = opB s' F sb) (hc : opC s F sb = opC s' F sb) (hf : f = f') :
    SameAnswer (answerTernary s F sb f) (answerTernary s' F sb f') :=
  sameAnswer_answer1 s s' (by rw [ha, hb, hc, hf])

/-- Vectors with equal lanes are equal. -/
theorem Lanes.ext_get {F : Fmt} {a b : Lanes F} (h : ∀ j, a.get j = b.get j) : a = b := by
  cases a
  cases b
  have h0 := h 0
  have h1 := h 1
  have h2 := h 2
  have h3 := h 3
  simp only [Lanes.get] at h0 h1 h2 h3
  subst h0 h1 h2 h3
  rfl

/-- NEG's exclusive-or with SignMask flips the sign bit (R119). -/
theorem negLane_eq_flipSign (F : Fmt) (a : Lane F) : negLane F a = flipSign F a := by
  cases F <;> rfl

/-- Horner's rule of R170 as one fold over the coefficients, the highest first. -/
theorem hornerSteps_eq_foldr (F : Fmt) (fu : Bool) (r : CoefRom F) (t : TableId) (x : Lane F) (n : Nat) (acc : Lane F) :
    hornerSteps F fu r t x n acc = (List.range n).foldr (fun i a => mulAdd F fu a x (coef r t i)) acc := by
  induction n generalizing acc with
  | zero => rfl
  | succ n ih => simp [hornerSteps, ih, List.range_succ]

/-! ### `exec` on each command -/

section exec

variable (s : State)

@[simp] theorem exec_add (fmt : Fmt) (sb : Bool) : exec (.add fmt sb) s = answerBinary s fmt sb (fadd fmt) := rfl

@[simp] theorem exec_sub (fmt : Fmt) (sb : Bool) : exec (.sub fmt sb) s = answerBinary s fmt sb (fsub fmt) := rfl

@[simp] theorem exec_mul (fmt : Fmt) (sb : Bool) : exec (.mul fmt sb) s = answerBinary s fmt sb (fmul fmt) := rfl

@[simp] theorem exec_div (fmt : Fmt) (sb : Bool) : exec (.div fmt sb) s = answerBinary s fmt sb (fdiv fmt) := rfl

@[simp] theorem exec_sqr (fmt : Fmt) : exec (.sqr fmt) s = answerUnary s fmt fun a => fmul fmt a a := rfl

@[simp] theorem exec_sqrt (fmt : Fmt) : exec (.sqrt fmt) s = answerUnary s fmt (fsqrt fmt) := rfl

@[simp] theorem exec_min (fmt : Fmt) (sb : Bool) : exec (.min fmt sb) s = answerBinary s fmt sb (minLane fmt) := rfl

@[simp] theorem exec_max (fmt : Fmt) (sb : Bool) : exec (.max fmt sb) s = answerBinary s fmt sb (maxLane fmt) := rfl

@[simp] theorem exec_abs (fmt : Fmt) : exec (.abs fmt) s = answerUnary s fmt (absLane fmt) := rfl

@[simp] theorem exec_neg (fmt : Fmt) : exec (.neg fmt) s = answerUnary s fmt (negLane fmt) := rfl

@[simp] theorem exec_round (fmt : Fmt) : exec (.round fmt) s = answerUnary s fmt (rintEven fmt) := rfl

@[simp] theorem exec_trunc (fmt : Fmt) : exec (.trunc fmt) s = answerUnary s fmt (rintZero fmt) := rfl

@[simp] theorem exec_rem (fmt : Fmt) (sb : Bool) : exec (.rem fmt sb) s = answerBinary s fmt sb (remLane fmt) := rfl

@[simp] theorem exec_clamp (fmt : Fmt) (sb : Bool) : exec (.clamp fmt sb) s = answerTernary s fmt sb (clampLane fmt) := rfl

@[simp] theorem exec_rcp (fmt : Fmt) (apx : Bool) : exec (.rcp fmt apx) s = answerUnary s fmt (rcpLane fmt apx s.cap) := rfl

@[simp] theorem exec_rsqrt (fmt : Fmt) (apx : Bool) :
    exec (.rsqrt fmt apx) s =
      answerUnary s fmt (rsqrtLane fmt apx s.cap) := rfl

@[simp] theorem exec_cmpeq (fmt : Fmt) (sb : Bool) :
    exec (.cmpeq fmt sb) s =
      answerBinary s fmt sb fun a b => mask fmt (feq fmt a b) := rfl

@[simp] theorem exec_cmpne (fmt : Fmt) (sb : Bool) :
    exec (.cmpne fmt sb) s =
      answerBinary s fmt sb fun a b => mask fmt (!feq fmt a b) := rfl

@[simp] theorem exec_cmplt (fmt : Fmt) (sb : Bool) :
    exec (.cmplt fmt sb) s =
      answerBinary s fmt sb fun a b => mask fmt (flt fmt a b) := rfl

@[simp] theorem exec_cmple (fmt : Fmt) (sb : Bool) :
    exec (.cmple fmt sb) s =
      answerBinary s fmt sb fun a b => mask fmt (fle fmt a b) := rfl

@[simp] theorem exec_cmpgt (fmt : Fmt) (sb : Bool) :
    exec (.cmpgt fmt sb) s =
      answerBinary s fmt sb fun a b => mask fmt (flt fmt b a) := rfl

@[simp] theorem exec_cmpge (fmt : Fmt) (sb : Bool) :
    exec (.cmpge fmt sb) s =
      answerBinary s fmt sb fun a b => mask fmt (fle fmt b a) := rfl

@[simp] theorem exec_inbounds (fmt : Fmt) (sb : Bool) :
    exec (.inbounds fmt sb) s =
      answerBinary s fmt sb (inboundsLane fmt) := rfl

@[simp] theorem exec_and (fmt : Fmt) (sb : Bool) : exec (.and fmt sb) s = answerBinary s fmt sb fun a b => a &&& b := rfl

@[simp] theorem exec_or (fmt : Fmt) (sb : Bool) : exec (.or fmt sb) s = answerBinary s fmt sb fun a b => a ||| b := rfl

@[simp] theorem exec_andnot (fmt : Fmt) (sb : Bool) :
    exec (.andnot fmt sb) s =
      answerBinary s fmt sb fun a b => ~~~a &&& b := rfl

@[simp] theorem exec_xor (fmt : Fmt) (sb : Bool) : exec (.xor fmt sb) s = answerBinary s fmt sb fun a b => a ^^^ b := rfl

@[simp] theorem exec_select (fmt : Fmt) (sb : Bool) : exec (.select fmt sb) s = answerTernary s fmt sb (sel fmt) := rfl

@[simp] theorem exec_copysign (fmt : Fmt) (sb : Bool) :
    exec (.copysign fmt sb) s =
      answerBinary s fmt sb (copySignLane fmt) := rfl

@[simp] theorem exec_extsign (fmt : Fmt) : exec (.extsign fmt) s = answerUnary s fmt (extSignLane fmt) := rfl

@[simp] theorem exec_hadd (fmt : Fmt) (sb : Bool) :
    exec (.hadd fmt sb) s =
      answer1 s (haddLanes fmt (opA s fmt) (opB s fmt sb)) := rfl

@[simp] theorem exec_mod2pi (fmt : Fmt) : exec (.mod2pi fmt) s = answerUnary s fmt (mod2PiLane fmt) := rfl

@[simp] theorem exec_fold (fmt : Fmt) :
    exec (.fold fmt) s =
      answer2 s ((opA s fmt).map fun a => (foldLane fmt a).1) ((opA s fmt).map fun a => (foldLane fmt a).2) := rfl

@[simp] theorem exec_sin (fmt : Fmt) (apx : Bool) :
    exec (.sin fmt apx) s =
      answerUnary s fmt (sinLane fmt s.cap (s.krom fmt) apx) := rfl

@[simp] theorem exec_cos (fmt : Fmt) (apx : Bool) :
    exec (.cos fmt apx) s =
      answerUnary s fmt (cosLane fmt s.cap (s.krom fmt) apx) := rfl

@[simp] theorem exec_sincos (fmt : Fmt) (apx : Bool) :
    exec (.sincos fmt apx) s =
      answer2 s ((opA s fmt).map (sinLane fmt s.cap (s.krom fmt) apx))
        ((opA s fmt).map (cosLane fmt s.cap (s.krom fmt) apx)) := rfl

@[simp] theorem exec_tan (fmt : Fmt) : exec (.tan fmt) s = answerUnary s fmt (tanLane fmt s.cap (s.krom fmt)) := rfl

@[simp] theorem exec_tanapprox (fmt : Fmt) :
    exec (.tanapprox fmt) s =
      answerUnary s fmt (tanApproxLane fmt s.cap (s.krom fmt)) := rfl

@[simp] theorem exec_atan (fmt : Fmt) (apx : Bool) :
    exec (.atan fmt apx) s =
      answerUnary s fmt (atanLane fmt s.cap (s.krom fmt) apx) := rfl

@[simp] theorem exec_atan2 (fmt : Fmt) (apx sb : Bool) :
    exec (.atan2 fmt apx sb) s =
      answerBinary s fmt sb (atan2Lane fmt s.cap (s.krom fmt) apx) := rfl

@[simp] theorem exec_rdcap (fmt : Fmt) : exec (.rdcap fmt) s = answer1 s (registerLanes fmt s.cap) := rfl

@[simp] theorem exec_rdstat (fmt : Fmt) : exec (.rdstat fmt) s = answer1 s (registerLanes fmt s.status) := rfl

theorem exec_bcast (fmt : Fmt) (l : Fin 4) :
    exec (.bcast fmt (BitVec.ofNat 7 l)) s = answer1 s (Lanes.all ((opA s fmt).get l)) := by
  match l with
  | 0 | 1 | 2 | 3 => rfl

theorem exec_bcast_illegal (fmt : Fmt) {idx : BitVec 7} (h : 3 < idx.toNat) :
    exec (.bcast fmt idx) s = answerIllegal s := by
  simp only [exec, execBcast]
  split <;> first | omega | rfl

theorem exec_ldconst (fmt : Fmt) {idx : BitVec 7} (h : idx.toNat ≤ 22) :
    exec (.ldconst fmt idx) s = answer1 s (constEntry fmt idx.toNat) := by
  simp [exec, execLdconst, constLimit, h]

theorem exec_ldconst_illegal (fmt : Fmt) {idx : BitVec 7} (h : 22 < idx.toNat) :
    exec (.ldconst fmt idx) s = answerIllegal s := by
  simp [exec, execLdconst, constLimit, Nat.not_le.mpr h]

theorem exec_ldcoef (fmt : Fmt) {idx : BitVec 7} (h : idx.toNat ≤ 17) :
    exec (.ldcoef fmt idx) s = answer1 s (coefRow (s.krom fmt) idx.toNat) := by
  simp [exec, execLdcoef, rowLimit, h]

theorem exec_ldcoef_illegal (fmt : Fmt) {idx : BitVec 7} (h : 17 < idx.toNat) :
    exec (.ldcoef fmt idx) s = answerIllegal s := by
  simp [exec, execLdcoef, rowLimit, Nat.not_le.mpr h]

end exec

end Sys2Proof.Machine
end

