-- ==== Sys2Proof/Laws/Float.lean ====
section
/-!
SUPPORT. The small lemmas of the lane patterns: sign and magnitude of a packed lane, and the classes they decide (R102).
-/

namespace Sys2Proof.Machine

theorem infMagnitude_lt (F : Fmt) : infMagnitude F < 2 ^ (F.width - 1) := by cases F <;> decide

theorem infMagnitude_pos (F : Fmt) : 0 < infMagnitude F := by cases F <;> decide

theorem magnitude_lt (F : Fmt) (x : Lane F) : magnitude F x < 2 ^ (F.width - 1) := Nat.mod_lt _ (Nat.two_pow_pos _)

theorem width_eq_succ (F : Fmt) : F.width = (F.width - 1) + 1 := by cases F <;> rfl

/-- The pattern of a packed lane as a number. -/
theorem pack_toNat {F : Fmt} {m : Nat} (s : Bool) (h : m < 2 ^ (F.width - 1)) :
    (pack F s m).toNat = m + if s then 2 ^ (F.width - 1) else 0 := by
  have h2 : 2 ^ F.width = 2 ^ (F.width - 1) + 2 ^ (F.width - 1) := by
    conv_lhs => rw [width_eq_succ F]
    rw [Nat.pow_succ]
    omega
  rw [pack, BitVec.toNat_ofNat, Nat.mod_eq_of_lt]
  cases s <;> simp <;> omega

@[simp] theorem magnitude_pack {F : Fmt} {m : Nat} (s : Bool) (h : m < 2 ^ (F.width - 1)) :
    magnitude F (pack F s m) = m := by
  rw [magnitude, pack_toNat s h]
  cases s <;> simp [Nat.mod_eq_of_lt h]

@[simp] theorem signbit_pack {F : Fmt} {m : Nat} (s : Bool) (h : m < 2 ^ (F.width - 1)) :
    signbit F (pack F s m) = s := by
  rw [signbit, BitVec.getLsbD, pack_toNat s h, Nat.testBit_eq_decide_div_mod_eq]
  cases s
  · simp [Nat.div_eq_of_lt h]
  · rw [if_pos rfl, Nat.add_div_right _ (Nat.two_pow_pos _), Nat.div_eq_of_lt h]
    rfl

/-- A lane is its sign and its magnitude. -/
theorem pack_signbit_magnitude (F : Fmt) (x : Lane F) : pack F (signbit F x) (magnitude F x) = x := by
  apply BitVec.eq_of_toNat_eq
  rw [pack_toNat _ (magnitude_lt F x), signbit, BitVec.getLsbD, Nat.testBit_eq_decide_div_mod_eq, magnitude]
  have hx : x.toNat < 2 ^ F.width := x.isLt
  have h2 : 2 ^ F.width = 2 * 2 ^ (F.width - 1) := by
    conv_lhs => rw [width_eq_succ F]
    rw [Nat.pow_succ, Nat.mul_comm]
  have hdiv : x.toNat / 2 ^ (F.width - 1) < 2 := by
    rw [Nat.div_lt_iff_lt_mul (Nat.two_pow_pos _)]
    omega
  have hmod := Nat.mod_add_div x.toNat (2 ^ (F.width - 1))
  generalize x.toNat / 2 ^ (F.width - 1) = q at hdiv hmod ⊢
  interval_cases q <;> simp at hmod ⊢ <;> omega

/-- Two lanes of one sign and one magnitude are equal. -/
theorem lane_ext {F : Fmt} {x y : Lane F} (hs : signbit F x = signbit F y) (hm : magnitude F x = magnitude F y) :
    x = y := by
  rw [← pack_signbit_magnitude F x, ← pack_signbit_magnitude F y, hs, hm]

/-- The four classes of R102 that the rules tell apart exclude each other. -/
theorem isFinite_iff (F : Fmt) (x : Lane F) : isFinite F x = true ↔ isNaN F x = false ∧ isInf F x = false := by
  simp only [isFinite, isNaN, isInf, decide_eq_true_eq, decide_eq_false_iff_not, beq_eq_false_iff_ne]
  omega

theorem isFinite_of_isZero {F : Fmt} {x : Lane F} (h : isZero F x = true) : isFinite F x = true := by
  simp only [isZero, beq_iff_eq] at h
  simp [isFinite, h, infMagnitude_pos]

/-- Clearing the sign bit leaves the magnitude (R175 step 4, R232). -/
theorem and_signClear (F : Fmt) (x : Lane F) : x &&& cSignClear F = pack F false (magnitude F x) := by
  have h : (cSignClear F).toNat = 2 ^ (F.width - 1) - 1 := by cases F <;> rfl
  apply BitVec.eq_of_toNat_eq
  rw [pack_toNat _ (magnitude_lt F x), BitVec.toNat_and, h, Nat.and_two_pow_sub_one_eq_mod]
  simp [magnitude]

/-- NEG's flip of the sign bit (R119) changes the sign and nothing else. -/
@[simp] theorem signbit_flipSign (F : Fmt) (x : Lane F) : signbit F (flipSign F x) = !signbit F x := by
  cases F <;> simp [signbit, flipSign, Fmt.width]

@[simp] theorem magnitude_flipSign (F : Fmt) (x : Lane F) : magnitude F (flipSign F x) = magnitude F x := by
  apply Nat.eq_of_testBit_eq
  intro k
  by_cases hk : k < F.width - 1
  · have hne : F.width - 1 ≠ k := by omega
    simp [magnitude, flipSign, Nat.testBit_mod_two_pow, hk, Nat.testBit_two_pow_of_ne hne]
  · simp [magnitude, Nat.testBit_mod_two_pow, hk]

theorem coefRomWf_refRom32 : coefRomWf refRom32 = true := by decide

theorem coefRomWf_refRom64 : coefRomWf refRom64 = true := by decide

end Sys2Proof.Machine
end

