-- ==== Sys2Proof/Laws/PerInstr.lean ====
section
/-!
SUPPORT. A fact about every command as syntax, one lemma per constructor: the encoder leaves RSV at 0 (R77, R83).
-/

namespace Sys2Proof

/-- The word built from the fields has RSV = 0 (R77). -/
theorem reservedOf_commandWord (opc : BitVec 6) (fmt : Fmt) (apx sb : Bool) (idx : BitVec 7) :
    reservedOf (commandWord opc fmt apx sb idx) = 0 := by
  apply BitVec.eq_of_getLsbD_eq
  intro i hi
  simp only [reservedOf, commandWord, BitVec.getLsbD_extractLsb', BitVec.getLsbD_append, hi, decide_true, Bool.true_and]
  simp (disch := omega) only [if_neg]
  simp

end Sys2Proof

namespace Sys2Proof.Laws.ReservedZero

/-- RSV of the command's word is 0 (R77). -/
def Statement (i : Instr) : Prop := reservedOf (encode i) = 0

theorem add (fmt : Fmt) (sb : Bool) : Statement (.add fmt sb) := reservedOf_commandWord _ _ _ _ _
theorem sub (fmt : Fmt) (sb : Bool) : Statement (.sub fmt sb) := reservedOf_commandWord _ _ _ _ _
theorem mul (fmt : Fmt) (sb : Bool) : Statement (.mul fmt sb) := reservedOf_commandWord _ _ _ _ _
theorem div (fmt : Fmt) (sb : Bool) : Statement (.div fmt sb) := reservedOf_commandWord _ _ _ _ _
theorem sqr (fmt : Fmt) : Statement (.sqr fmt) := reservedOf_commandWord _ _ _ _ _
theorem sqrt (fmt : Fmt) : Statement (.sqrt fmt) := reservedOf_commandWord _ _ _ _ _
theorem min (fmt : Fmt) (sb : Bool) : Statement (.min fmt sb) := reservedOf_commandWord _ _ _ _ _
theorem max (fmt : Fmt) (sb : Bool) : Statement (.max fmt sb) := reservedOf_commandWord _ _ _ _ _
theorem abs (fmt : Fmt) : Statement (.abs fmt) := reservedOf_commandWord _ _ _ _ _
theorem neg (fmt : Fmt) : Statement (.neg fmt) := reservedOf_commandWord _ _ _ _ _
theorem round (fmt : Fmt) : Statement (.round fmt) := reservedOf_commandWord _ _ _ _ _
theorem trunc (fmt : Fmt) : Statement (.trunc fmt) := reservedOf_commandWord _ _ _ _ _
theorem rem (fmt : Fmt) (sb : Bool) : Statement (.rem fmt sb) := reservedOf_commandWord _ _ _ _ _
theorem clamp (fmt : Fmt) (sb : Bool) : Statement (.clamp fmt sb) := reservedOf_commandWord _ _ _ _ _
theorem rcp (fmt : Fmt) (apx : Bool) : Statement (.rcp fmt apx) := reservedOf_commandWord _ _ _ _ _
theorem rsqrt (fmt : Fmt) (apx : Bool) : Statement (.rsqrt fmt apx) := reservedOf_commandWord _ _ _ _ _
theorem cmpeq (fmt : Fmt) (sb : Bool) : Statement (.cmpeq fmt sb) := reservedOf_commandWord _ _ _ _ _
theorem cmpne (fmt : Fmt) (sb : Bool) : Statement (.cmpne fmt sb) := reservedOf_commandWord _ _ _ _ _
theorem cmplt (fmt : Fmt) (sb : Bool) : Statement (.cmplt fmt sb) := reservedOf_commandWord _ _ _ _ _
theorem cmple (fmt : Fmt) (sb : Bool) : Statement (.cmple fmt sb) := reservedOf_commandWord _ _ _ _ _
theorem cmpgt (fmt : Fmt) (sb : Bool) : Statement (.cmpgt fmt sb) := reservedOf_commandWord _ _ _ _ _
theorem cmpge (fmt : Fmt) (sb : Bool) : Statement (.cmpge fmt sb) := reservedOf_commandWord _ _ _ _ _
theorem inbounds (fmt : Fmt) (sb : Bool) : Statement (.inbounds fmt sb) := reservedOf_commandWord _ _ _ _ _
theorem and (fmt : Fmt) (sb : Bool) : Statement (.and fmt sb) := reservedOf_commandWord _ _ _ _ _
theorem or (fmt : Fmt) (sb : Bool) : Statement (.or fmt sb) := reservedOf_commandWord _ _ _ _ _
theorem andnot (fmt : Fmt) (sb : Bool) : Statement (.andnot fmt sb) := reservedOf_commandWord _ _ _ _ _
theorem xor (fmt : Fmt) (sb : Bool) : Statement (.xor fmt sb) := reservedOf_commandWord _ _ _ _ _
theorem select (fmt : Fmt) (sb : Bool) : Statement (.select fmt sb) := reservedOf_commandWord _ _ _ _ _
theorem copysign (fmt : Fmt) (sb : Bool) : Statement (.copysign fmt sb) := reservedOf_commandWord _ _ _ _ _
theorem extsign (fmt : Fmt) : Statement (.extsign fmt) := reservedOf_commandWord _ _ _ _ _
theorem hadd (fmt : Fmt) (sb : Bool) : Statement (.hadd fmt sb) := reservedOf_commandWord _ _ _ _ _
theorem bcast (fmt : Fmt) (idx : BitVec 7) : Statement (.bcast fmt idx) := reservedOf_commandWord _ _ _ _ _
theorem mod2pi (fmt : Fmt) : Statement (.mod2pi fmt) := reservedOf_commandWord _ _ _ _ _
theorem fold (fmt : Fmt) : Statement (.fold fmt) := reservedOf_commandWord _ _ _ _ _
theorem sin (fmt : Fmt) (apx : Bool) : Statement (.sin fmt apx) := reservedOf_commandWord _ _ _ _ _
theorem cos (fmt : Fmt) (apx : Bool) : Statement (.cos fmt apx) := reservedOf_commandWord _ _ _ _ _
theorem sincos (fmt : Fmt) (apx : Bool) : Statement (.sincos fmt apx) := reservedOf_commandWord _ _ _ _ _
theorem tan (fmt : Fmt) : Statement (.tan fmt) := reservedOf_commandWord _ _ _ _ _
theorem tanapprox (fmt : Fmt) : Statement (.tanapprox fmt) := reservedOf_commandWord _ _ _ _ _
theorem atan (fmt : Fmt) (apx : Bool) : Statement (.atan fmt apx) := reservedOf_commandWord _ _ _ _ _
theorem atan2 (fmt : Fmt) (apx sb : Bool) : Statement (.atan2 fmt apx sb) := reservedOf_commandWord _ _ _ _ _
theorem ldconst (fmt : Fmt) (idx : BitVec 7) : Statement (.ldconst fmt idx) := reservedOf_commandWord _ _ _ _ _
theorem ldcoef (fmt : Fmt) (idx : BitVec 7) : Statement (.ldcoef fmt idx) := reservedOf_commandWord _ _ _ _ _
theorem rdcap (fmt : Fmt) : Statement (.rdcap fmt) := reservedOf_commandWord _ _ _ _ _
theorem rdstat (fmt : Fmt) : Statement (.rdstat fmt) := reservedOf_commandWord _ _ _ _ _

end Sys2Proof.Laws.ReservedZero
end

