-- ==== Sys2Proof/Tests/Slice0.lean ====
section
/-!
SUPPORT. Tests: the well-formedness smoke, a word of every command decoded, the vectors of spec/95_test_vectors.md for one
command each, and for every statement of Certificates/Slice0/Obligations.lean that has hypotheses a state and operands that
meet them.
-/

namespace Sys2Proof.Tests

open Sys2Proof Sys2Proof.Machine

set_option Elab.async false

/-! ### Well-formedness (R74): each check refuses its ill-formed term, and takes the last one within its limit -/

theorem test_wf_bcast_last : (Instr.bcast .f32 3).wellFormed = true := by decide
theorem test_wf_bcast_refused : (Instr.bcast .f32 4).wellFormed = false := by decide
theorem test_wf_ldconst_last : (Instr.ldconst .f64 22).wellFormed = true := by decide
theorem test_wf_ldconst_refused : (Instr.ldconst .f64 23).wellFormed = false := by decide
theorem test_wf_ldcoef_last : (Instr.ldcoef .f32 17).wellFormed = true := by decide
theorem test_wf_ldcoef_refused : (Instr.ldcoef .f32 18).wellFormed = false := by decide
theorem test_wf_largest_index_refused : (Instr.bcast .f64 127).wellFormed = false := by decide

/-! ### Decoding: words written out from R70 and R79 as `OPC | FMT<<6 | APX<<7 | SB<<8 | IDX<<9` -/

theorem test_decode_add : decode 0x00000101#32 = .ok (.add .f32 true) := by decide
theorem test_decode_sub : decode 0x00000042#32 = .ok (.sub .f64 false) := by decide
theorem test_decode_mul : decode 0x00000003#32 = .ok (.mul .f32 false) := by decide
theorem test_decode_div : decode 0x00000144#32 = .ok (.div .f64 true) := by decide
theorem test_decode_sqr : decode 0x00000005#32 = .ok (.sqr .f32) := by decide
theorem test_decode_sqrt : decode 0x00000046#32 = .ok (.sqrt .f64) := by decide
theorem test_decode_min : decode 0x00000007#32 = .ok (.min .f32 false) := by decide
theorem test_decode_max : decode 0x00000108#32 = .ok (.max .f32 true) := by decide
theorem test_decode_abs : decode 0x00000009#32 = .ok (.abs .f32) := by decide
theorem test_decode_neg : decode 0x0000004A#32 = .ok (.neg .f64) := by decide
theorem test_decode_round : decode 0x0000000B#32 = .ok (.round .f32) := by decide
theorem test_decode_trunc : decode 0x0000004C#32 = .ok (.trunc .f64) := by decide
theorem test_decode_rem : decode 0x0000000D#32 = .ok (.rem .f32 false) := by decide
theorem test_decode_clamp : decode 0x0000010E#32 = .ok (.clamp .f32 true) := by decide
theorem test_decode_rcp : decode 0x0000008F#32 = .ok (.rcp .f32 true) := by decide
theorem test_decode_rsqrt : decode 0x00000050#32 = .ok (.rsqrt .f64 false) := by decide
theorem test_decode_cmpeq : decode 0x00000051#32 = .ok (.cmpeq .f64 false) := by decide
theorem test_decode_cmpne : decode 0x00000012#32 = .ok (.cmpne .f32 false) := by decide
theorem test_decode_cmplt : decode 0x00000113#32 = .ok (.cmplt .f32 true) := by decide
theorem test_decode_cmple : decode 0x00000014#32 = .ok (.cmple .f32 false) := by decide
theorem test_decode_cmpgt : decode 0x00000055#32 = .ok (.cmpgt .f64 false) := by decide
theorem test_decode_cmpge : decode 0x00000116#32 = .ok (.cmpge .f32 true) := by decide
theorem test_decode_inbounds : decode 0x00000117#32 = .ok (.inbounds .f32 true) := by decide
theorem test_decode_and : decode 0x00000018#32 = .ok (.and .f32 false) := by decide
theorem test_decode_or : decode 0x00000059#32 = .ok (.or .f64 false) := by decide
theorem test_decode_andnot : decode 0x0000001A#32 = .ok (.andnot .f32 false) := by decide
theorem test_decode_xor : decode 0x0000015B#32 = .ok (.xor .f64 true) := by decide
theorem test_decode_select : decode 0x0000011C#32 = .ok (.select .f32 true) := by decide
theorem test_decode_copysign : decode 0x0000001D#32 = .ok (.copysign .f32 false) := by decide
theorem test_decode_extsign : decode 0x0000005E#32 = .ok (.extsign .f64) := by decide
theorem test_decode_hadd : decode 0x0000011F#32 = .ok (.hadd .f32 true) := by decide
theorem test_decode_bcast : decode 0x00000620#32 = .ok (.bcast .f32 3) := by decide
theorem test_decode_mod2pi : decode 0x00000061#32 = .ok (.mod2pi .f64) := by decide
theorem test_decode_fold : decode 0x00000022#32 = .ok (.fold .f32) := by decide
theorem test_decode_sin : decode 0x000000E3#32 = .ok (.sin .f64 true) := by decide
theorem test_decode_cos : decode 0x00000024#32 = .ok (.cos .f32 false) := by decide
theorem test_decode_sincos : decode 0x000000A5#32 = .ok (.sincos .f32 true) := by decide
theorem test_decode_tan : decode 0x00000066#32 = .ok (.tan .f64) := by decide
theorem test_decode_tanapprox : decode 0x000000A6#32 = .ok (.tanapprox .f32) := by decide
theorem test_decode_atan : decode 0x000000E7#32 = .ok (.atan .f64 true) := by decide
theorem test_decode_atan2 : decode 0x000001A8#32 = .ok (.atan2 .f32 true true) := by decide
theorem test_decode_ldconst : decode 0x00002C69#32 = .ok (.ldconst .f64 22) := by decide
theorem test_decode_ldcoef : decode 0x0000222A#32 = .ok (.ldcoef .f32 17) := by decide
theorem test_decode_rdcap : decode 0x0000006B#32 = .ok (.rdcap .f64) := by decide
theorem test_decode_rdstat : decode 0x0000002C#32 = .ok (.rdstat .f32) := by decide

/-- R276 and R85: each of these words is no command. -/
theorem test_decode_refused :
    decode 0x00000000#32 = .error .reservedOpcode ∧ decode 0x0000003F#32 = .error .reservedOpcode ∧
      decode 0x00000081#32 = .error .apxNotAllowed ∧ decode 0x00000105#32 = .error .sbNotAllowed ∧
      decode 0x0000012B#32 = .error .sbNotAllowed ∧ decode 0x00000820#32 = .error .idxOutOfRange ∧
      decode 0x00002E29#32 = .error .idxOutOfRange ∧ decode 0x0000242A#32 = .error .idxOutOfRange ∧
      decode 0x00000223#32 = .error .idxOutOfRange ∧ decode 0x80000001#32 = .error .reservedBits := by
  decide

/-- R83: the word of `LDCONST.D #Pi`, and its text. -/
theorem test_assembly :
    encode (.ldconst .f64 3) = 0x00000669#32 ∧ assemblyText (.ldconst .f64 3) = "LDCONST.D #3" ∧
      constNames[3]? = some "Pi" ∧ assemblyText (.sin .f32 true) = "SIN.A.S" ∧
      assemblyText (.atan2 .f32 false true) = "ATAN2.S.SB" := by
  decide

/-- R84: `LDCOEFT.S ATAN_P, 1` is `LDCOEF.S #15`. -/
theorem test_pseudo : encode (Pseudo.ldcoeft .f32 .atanP true).expand = 0x00001E2A#32 := by decide

/-! ### One command each, on the vectors of spec/95_test_vectors.md -/

/-- A bus of four F32 lanes, lane 0 first (R28). -/
def vec32 (l0 l1 l2 l3 : Nat) : Bus := BitVec.ofNat 256 (l0 + 2 ^ 32 * l1 + 2 ^ 64 * l2 + 2 ^ 96 * l3)

/-- A bus of four F64 lanes, lane 0 first (R28). -/
def vec64 (l0 l1 l2 l3 : Nat) : Bus := BitVec.ofNat 256 (l0 + 2 ^ 64 * l1 + 2 ^ 128 * l2 + 2 ^ 192 * l3)

/-- The machine after reset with one command in `Q`. -/
def holding (capIn : BitVec 3) (w : Word) (a b c : Bus) : State :=
  { State.resetWith capIn refRom32 refRom64 with q := [{ cmd := { word := w, a := a, b := b, c := c }, wait := 0 }] }

/-- The command's response is the one given. -/
def answers (capIn : BitVec 3) (w : Word) (a b c : Bus) (code : BitVec 2) (r0 r1 : Bus) : Bool :=
  match runCommand w (holding capIn w a b c) with
  | .next t => t.rspValid && t.rspCode == code && t.res0 == r0 && t.res1 == r1
  | _ => false

/-- V40.2: ADD.S. -/
theorem test_add_V40_2 :
    answers 0b011#3 0x00000001#32 (vec32 0x7F800000 0x80000000 0x7F800001 0x3F800000)
      (vec32 0xFF800000 0x80000000 0xFFC00001 0xBF800000) 0 0b00#2
      (vec32 0xFFC00000 0x80000000 0x7FC00001 0) 0 = true := by
  decide +kernel

/-- V40.3: ADD.D. -/
theorem test_add_V40_3 :
    answers 0b011#3 0x00000041#32
      (vec64 0x3FF8000000000000 0x8000000000000000 0x7FF0000000000000 0x0000000000000001)
      (vec64 0x4002000000000000 0x8000000000000000 0xFFF0000000000000 0x0000000000000001) 0 0b00#2
      (vec64 0x400E000000000000 0x8000000000000000 0xFFF8000000000000 0x0000000000000002) 0 = true := by
  decide +kernel

/-- V40.5: SUB.S. -/
theorem test_sub_V40_5 :
    answers 0b011#3 0x00000002#32 (vec32 0x80000000 0x7F800000 0 0x7FC00000)
      (vec32 0 0x7F800000 0x80000000 0x3F800000) 0 0b00#2 (vec32 0x80000000 0xFFC00000 0 0x7FC00000) 0 = true := by
  decide +kernel

/-- V40.6: MUL.S. -/
theorem test_mul_V40_6 :
    answers 0b011#3 0x00000003#32 (vec32 0x40000000 0 0xC0400000 0x0DA24260)
      (vec32 0x40400000 0x7F800000 0 0x0DA24260) 0 0b00#2 (vec32 0x40C00000 0xFFC00000 0x80000000 0) 0 = true := by
  decide +kernel

/-- V40.8: DIV.S. -/
theorem test_div_V40_8 :
    answers 0b011#3 0x00000004#32 (vec32 0x3F800000 0 0xBF800000 0x3F800000)
      (vec32 0x40400000 0 0 0x80000000) 0 0b00#2 (vec32 0x3EAAAAAB 0xFFC00000 0xFF800000 0xFF800000) 0 = true := by
  decide +kernel

/-- V40.10: DIV.D. -/
theorem test_div_V40_10 :
    answers 0b011#3 0x00000044#32 (vec64 0x3FF0000000000000 0 0xBFF0000000000000 0x3FF0000000000000)
      (vec64 0x4008000000000000 0 0 0x8000000000000000) 0 0b00#2
      (vec64 0x3FD5555555555555 0xFFF8000000000000 0xFFF0000000000000 0xFFF0000000000000) 0 = true := by
  decide +kernel

/-- V40.11: SQR.S. -/
theorem test_sqr_V40_11 :
    answers 0b011#3 0x00000005#32 (vec32 0x40400000 0xC0000000 0x60AD78EC 0x15F79688) 0 0 0b00#2
      (vec32 0x41100000 0x40800000 0x7F800000 0) 0 = true := by
  decide +kernel

/-- V40.13: SQRT.S. -/
theorem test_sqrt_V40_13 :
    answers 0b011#3 0x00000006#32 (vec32 0x40000000 0x80000000 0xBF800000 0x3E800000) 0 0 0b00#2
      (vec32 0x3FB504F3 0x80000000 0xFFC00000 0x3F000000) 0 = true := by
  decide +kernel

/-- V40.15: SQRT.D. -/
theorem test_sqrt_V40_15 :
    answers 0b011#3 0x00000046#32
      (vec64 0x4000000000000000 0x8000000000000000 0xBFF0000000000000 0x7FF0000000000000) 0 0 0b00#2
      (vec64 0x3FF6A09E667F3BCD 0x8000000000000000 0xFFF8000000000000 0x7FF0000000000000) 0 = true := by
  decide +kernel

/-- V40.16: MIN.S. -/
theorem test_min_V40_16 :
    answers 0b011#3 0x00000007#32 (vec32 0x3F800000 0 0x7FC00000 0x40000000)
      (vec32 0x40000000 0x80000000 0x3F800000 0x7FC00000) 0 0b00#2
      (vec32 0x3F800000 0x80000000 0x3F800000 0x7FC00000) 0 = true := by
  decide +kernel

/-- V40.18: MAX.S. -/
theorem test_max_V40_18 :
    answers 0b011#3 0x00000008#32 (vec32 0x3F800000 0 0x7FC00000 0x40000000)
      (vec32 0x40000000 0x80000000 0x3F800000 0x7FC00000) 0 0b00#2
      (vec32 0x40000000 0x80000000 0x3F800000 0x7FC00000) 0 = true := by
  decide +kernel

/-- V95.18: ABS.S. -/
theorem test_abs_V95_18 :
    answers 0b011#3 0x00000009#32 (vec32 0x80000000 0xC0400000 0xFF800000 0xFFC00001) 0 0 0b00#2
      (vec32 0x80000000 0x40400000 0x7F800000 0xFFC00001) 0 = true := by
  decide +kernel

/-- V40.23: NEG.D. -/
theorem test_neg_V40_23 :
    answers 0b011#3 0x0000004A#32 (vec64 0x3FF0000000000000 0 0x8000000000000000 0x7FF0000000000000) 0 0 0b00#2
      (vec64 0xBFF0000000000000 0x8000000000000000 0 0xFFF0000000000000) 0 = true := by
  decide +kernel

/-- V95.27: ROUND.S. -/
theorem test_round_V95_27 :
    answers 0b011#3 0x0000000B#32 (vec32 0x40200000 0xBF000000 0x4B000001 0xBFC00000) 0 0 0b00#2
      (vec32 0x40000000 0x80000000 0x4B000001 0xC0000000) 0 = true := by
  decide +kernel

/-- V40.26: ROUND.D. -/
theorem test_round_V40_26 :
    answers 0b011#3 0x0000004B#32
      (vec64 0x4004000000000000 0xBFE0000000000000 0x4330000000000001 0xBFF8000000000000) 0 0 0b00#2
      (vec64 0x4000000000000000 0x8000000000000000 0x4330000000000001 0xC000000000000000) 0 = true := by
  decide +kernel

/-- V40.27: TRUNC.S. -/
theorem test_trunc_V40_27 :
    answers 0b011#3 0x0000000C#32 (vec32 0x40200000 0xBFD9999A 0xBE99999A 0x7149F2CA) 0 0 0b00#2
      (vec32 0x40000000 0xBF800000 0x80000000 0x7149F2CA) 0 = true := by
  decide +kernel

/-- V95.16: REM.S. -/
theorem test_rem_V95_16 :
    answers 0b011#3 0x0000000D#32 (vec32 0x40E00000 0xC0E00000 0x40F00000 0x3F800000)
      (vec32 0x40000000 0x40000000 0xC0000000 0) 0 0b00#2
      (vec32 0x3F800000 0xBF800000 0x3FC00000 0xFFC00000) 0 = true := by
  decide +kernel

/-- V95.17: CLAMP.S. -/
theorem test_clamp_V95_17 :
    answers 0b011#3 0x0000000E#32 (vec32 0x40A00000 0xC0A00000 0x3F000000 0x7FC00000) (vec32 0 0 0 0)
      (vec32 0x3F800000 0x3F800000 0x3F800000 0x3F800000) 0b00#2
      (vec32 0x3F800000 0 0x3F000000 0x3F800000) 0 = true := by
  decide +kernel

/-- V40.34: CLAMP.S.SB. -/
theorem test_clamp_V40_34 :
    answers 0b011#3 0x0000010E#32 (vec32 0x40400000 0xC0400000 0x3F000000 0x7FC00000)
      (vec32 0xBF800000 0x41100000 0x41100000 0x41100000)
      (vec32 0x3F800000 0x41100000 0x41100000 0x41100000) 0b00#2
      (vec32 0x3F800000 0xBF800000 0x3F000000 0x3F800000) 0 = true := by
  decide +kernel

/-- V40.35: RCP.S. -/
theorem test_rcp_V40_35 :
    answers 0b011#3 0x0000000F#32 (vec32 0x40000000 0 0x80000000 0x7F800000) 0 0 0b00#2
      (vec32 0x3F000000 0x7F800000 0xFF800000 0) 0 = true := by
  decide +kernel

/-- V40.37: RCP.A.S. -/
theorem test_rcp_V40_37 :
    answers 0b000#3 0x0000008F#32 (vec32 0x40000000 0 0x80000000 0x7F800000) 0 0 0b00#2
      (vec32 0x3F000000 0x7F800000 0xFF800000 0) 0 = true := by
  decide +kernel

/-- V40.39: RSQRT.S. -/
theorem test_rsqrt_V40_39 :
    answers 0b011#3 0x00000010#32 (vec32 0x80000000 0x7F800000 0xFF800000 0x7F800001) 0 0 0b00#2
      (vec32 0xFF800000 0 0xFFC00000 0x7FC00001) 0 = true := by
  decide +kernel

/-- V40.40: RSQRT.D. -/
theorem test_rsqrt_V40_40 :
    answers 0b111#3 0x00000050#32 (vec64 0x4010000000000000 0 0xBFF0000000000000 0x4000000000000000) 0 0 0b00#2
      (vec64 0x3FE0000000000000 0x7FF0000000000000 0xFFF8000000000000 0x3FE6A09E667F3BCC) 0 = true := by
  decide +kernel

/-- V41.1: CMPEQ.S. -/
theorem test_cmpeq_V41_1 :
    answers 0b011#3 0x00000011#32 (vec32 0x3F800000 0 0x7FC00000 0xBF800000)
      (vec32 0x3F800000 0x80000000 0x3F800000 0x3F800000) 0 0b00#2 (vec32 0xFFFFFFFF 0xFFFFFFFF 0 0) 0 = true := by
  decide +kernel

/-- V41.8: CMPEQ.D. -/
theorem test_cmpeq_V41_8 :
    answers 0b011#3 0x00000051#32 (vec64 0x3FF0000000000000 0 0x7FF8000000000000 0x7FF0000000000000)
      (vec64 0x3FF0000000000000 0x8000000000000000 0x7FF8000000000000 0x7FF0000000000000) 0 0b00#2
      (vec64 0xFFFFFFFFFFFFFFFF 0xFFFFFFFFFFFFFFFF 0 0xFFFFFFFFFFFFFFFF) 0 = true := by
  decide +kernel

/-- V41.2: CMPNE.S. -/
theorem test_cmpne_V41_2 :
    answers 0b011#3 0x00000012#32 (vec32 0x3F800000 0 0x7FC00000 0xBF800000)
      (vec32 0x3F800000 0x80000000 0x3F800000 0x3F800000) 0 0b00#2 (vec32 0 0 0xFFFFFFFF 0xFFFFFFFF) 0 = true := by
  decide +kernel

/-- V41.3: CMPLT.S. -/
theorem test_cmplt_V41_3 :
    answers 0b011#3 0x00000013#32 (vec32 0x3F800000 0 0x7FC00000 0xBF800000)
      (vec32 0x3F800000 0x80000000 0x3F800000 0x3F800000) 0 0b00#2 (vec32 0 0 0 0xFFFFFFFF) 0 = true := by
  decide +kernel

/-- V41.4: CMPLE.S. -/
theorem test_cmple_V41_4 :
    answers 0b011#3 0x00000014#32 (vec32 0x3F800000 0 0x7FC00000 0xBF800000)
      (vec32 0x3F800000 0x80000000 0x3F800000 0x3F800000) 0 0b00#2
      (vec32 0xFFFFFFFF 0xFFFFFFFF 0 0xFFFFFFFF) 0 = true := by
  decide +kernel

/-- V41.5: CMPGT.S. -/
theorem test_cmpgt_V41_5 :
    answers 0b011#3 0x00000015#32 (vec32 0x3F800000 0 0x7FC00000 0xBF800000)
      (vec32 0x3F800000 0x80000000 0x3F800000 0x3F800000) 0 0b00#2 (vec32 0 0 0 0) 0 = true := by
  decide +kernel

/-- V41.6: CMPGE.S. -/
theorem test_cmpge_V41_6 :
    answers 0b011#3 0x00000016#32 (vec32 0x3F800000 0 0x7FC00000 0xBF800000)
      (vec32 0x3F800000 0x80000000 0x3F800000 0x3F800000) 0 0b00#2 (vec32 0xFFFFFFFF 0xFFFFFFFF 0 0) 0 = true := by
  decide +kernel

/-- V41.9: CMPGE.S.SB. -/
theorem test_cmpge_V41_9 :
    answers 0b011#3 0x00000116#32 (vec32 0x3F800000 0x40000000 0x40400000 0x40800000)
      (vec32 0x40000000 0 0 0) 0 0b00#2 (vec32 0 0xFFFFFFFF 0xFFFFFFFF 0xFFFFFFFF) 0 = true := by
  decide +kernel

/-- V41.10: INBOUNDS.S. -/
theorem test_inbounds_V41_10 :
    answers 0b011#3 0x00000017#32 (vec32 0x3F000000 0xBF800000 0x3FC00000 0x7FC00000)
      (vec32 0x3F800000 0x3F800000 0x3F800000 0x3F800000) 0 0b00#2 (vec32 0xFFFFFFFF 0xFFFFFFFF 0 0) 0 = true := by
  decide +kernel

/-- V41.11: INBOUNDS.S. -/
theorem test_inbounds_V41_11 :
    answers 0b011#3 0x00000017#32 (vec32 0 0x80000000 0x40A00000 0xC0A00000)
      (vec32 0x80000000 0x80000000 0x7F800000 0xBF800000) 0 0b00#2
      (vec32 0xFFFFFFFF 0xFFFFFFFF 0xFFFFFFFF 0) 0 = true := by
  decide +kernel

/-- V41.12: AND.S. -/
theorem test_and_V41_12 :
    answers 0b011#3 0x00000018#32 (vec32 0xFFFF0000 0x12345678 0 0xFFFFFFFF)
      (vec32 0x0F0F0F0F 0xFFFFFFFF 0xFFFFFFFF 0x3F800000) 0 0b00#2
      (vec32 0x0F0F0000 0x12345678 0 0x3F800000) 0 = true := by
  decide +kernel

/-- V41.13: OR.S. -/
theorem test_or_V41_13 :
    answers 0b011#3 0x00000019#32 (vec32 0xFFFF0000 0x12345678 0 0x80000000)
      (vec32 0x0F0F0F0F 0 0xFFFFFFFF 0x3F800000) 0 0b00#2
      (vec32 0xFFFF0F0F 0x12345678 0xFFFFFFFF 0xBF800000) 0 = true := by
  decide +kernel

/-- V41.14: ANDNOT.S. -/
theorem test_andnot_V41_14 :
    answers 0b011#3 0x0000001A#32 (vec32 0xFFFF0000 0x80000000 0 0xFFFFFFFF)
      (vec32 0x0F0F0F0F 0xBF800000 0x3F800000 0x3F800000) 0 0b00#2
      (vec32 0x00000F0F 0x3F800000 0x3F800000 0) 0 = true := by
  decide +kernel

/-- V41.15: XOR.S. -/
theorem test_xor_V41_15 :
    answers 0b011#3 0x0000001B#32 (vec32 0xFFFF0000 0x80000000 0 0xFFFFFFFF)
      (vec32 0x0F0F0F0F 0xBF800000 0x3F800000 0x3F800000) 0 0b00#2
      (vec32 0xF0F00F0F 0x3F800000 0x3F800000 0xC07FFFFF) 0 = true := by
  decide +kernel

/-- V41.17: SELECT.S. -/
theorem test_select_V41_17 :
    answers 0b011#3 0x0000001C#32 (vec32 0xFFFFFFFF 0 0xFFFF0000 0x80000000)
      (vec32 0x3F800000 0x3F800000 0x3F800000 0x3F800000)
      (vec32 0x40000000 0x40000000 0x40000000 0x40000000) 0b00#2
      (vec32 0x3F800000 0x40000000 0x3F800000 0x40000000) 0 = true := by
  decide +kernel

/-- V41.19: SELECT.S.SB. -/
theorem test_select_V41_19 :
    answers 0b011#3 0x0000011C#32 (vec32 0xFFFFFFFF 0 0xFFFFFFFF 0)
      (vec32 0x40E00000 0x41000000 0x41100000 0x41200000)
      (vec32 0xC0E00000 0xC1000000 0xC1100000 0xC1200000) 0b00#2
      (vec32 0x40E00000 0xC0E00000 0x40E00000 0xC0E00000) 0 = true := by
  decide +kernel

/-- V41.20: COPYSIGN.S. -/
theorem test_copysign_V41_20 :
    answers 0b011#3 0x0000001D#32 (vec32 0xBF800000 0x3F800000 0x80000000 0x3F800000)
      (vec32 0x40400000 0xC0400000 0x3F800000 0x80000000) 0 0b00#2
      (vec32 0xC0400000 0x40400000 0xBF800000 0x80000000) 0 = true := by
  decide +kernel

/-- V41.22: EXTSIGN.S. -/
theorem test_extsign_V41_22 :
    answers 0b011#3 0x0000001E#32 (vec32 0xC0400000 0x40400000 0x80000000 0xFFC00000) 0 0 0b00#2
      (vec32 0x80000000 0 0x80000000 0x80000000) 0 = true := by
  decide +kernel

/-- V41.24: HADD.S.SB. -/
theorem test_hadd_V41_24 :
    answers 0b011#3 0x0000011F#32 (vec32 0x7F800000 0xFF800000 0x80000000 0x80000000)
      (vec32 0x3F800000 0x40000000 0 0) 0 0b00#2 (vec32 0xFFC00000 0x80000000 0x40000000 0x40000000) 0 = true := by
  decide +kernel

/-- V41.25: HADD.D. -/
theorem test_hadd_V41_25 :
    answers 0b011#3 0x0000005F#32
      (vec64 0x3FF0000000000000 0x4000000000000000 0x4008000000000000 0x4010000000000000)
      (vec64 0x4024000000000000 0x4034000000000000 0x403E000000000000 0x4044000000000000) 0 0b00#2
      (vec64 0x4008000000000000 0x401C000000000000 0x403E000000000000 0x4051800000000000) 0 = true := by
  decide +kernel

/-- V41.26: BCAST.S #2. -/
theorem test_bcast_V41_26 :
    answers 0b011#3 0x00000420#32 (vec32 0x3F800000 0x40000000 0x40400000 0x40800000) 0 0 0b00#2
      (vec32 0x40400000 0x40400000 0x40400000 0x40400000) 0 = true := by
  decide +kernel

/-- V42.1: MOD2PI.S. -/
theorem test_mod2pi_V42_1 :
    answers 0b011#3 0x00000021#32 (vec32 0x40E00000 0x40800000 0x40490FDB 0xC0490FDB) 0 0 0b00#2
      (vec32 0x3F378128 0xC0121FB6 0x40490FDB 0xC0490FDB) 0 = true := by
  decide +kernel

/-- V42.4: MOD2PI.D. -/
theorem test_mod2pi_V42_4 :
    answers 0b011#3 0x00000061#32
      (vec64 0x401C000000000000 0x4010000000000000 0x400921FB54442D18 0xC00921FB54442D18) 0 0 0b00#2
      (vec64 0x3FE6F0255DDE9740 0xC00243F6A8885A30 0x400921FB54442D18 0xC00921FB54442D18) 0 = true := by
  decide +kernel

/-- V42.6: FOLD.S. -/
theorem test_fold_V42_6 :
    answers 0b011#3 0x00000022#32 (vec32 0x40490FDB 0xC0490FDB 0x80000000 0x7FC00000) 0 0 0b00#2
      (vec32 0 0 0x80000000 0x7FC00000) (vec32 0xBF800000 0xBF800000 0x3F800000 0xBF800000) = true := by
  decide +kernel

/-- V42.8: FOLD.D. -/
theorem test_fold_V42_8 :
    answers 0b011#3 0x00000062#32
      (vec64 0x4000000000000000 0xC000000000000000 0x400921FB54442D18 0x8000000000000000) 0 0 0b00#2
      (vec64 0x3FF243F6A8885A30 0xBFF243F6A8885A30 0 0x8000000000000000)
      (vec64 0xBFF0000000000000 0xBFF0000000000000 0xBFF0000000000000 0x3FF0000000000000) = true := by
  decide +kernel

/-- V43.2: SIN.S. -/
theorem test_sin_V43_2 :
    answers 0b111#3 0x00000023#32 (vec32 0x3F800000 0xBF800000 0x40000000 0x41200000) 0 0 0b00#2
      (vec32 0x3F576AA4 0xBF576AA4 0x3F68C7B7 0xBF0B44F4) 0 = true := by
  decide +kernel

/-- V43.19: SIN.D. -/
theorem test_sin_V43_19 :
    answers 0b111#3 0x00000063#32
      (vec64 0x3FF0000000000000 0xBFF0000000000000 0x4000000000000000 0x4024000000000000) 0 0 0b00#2
      (vec64 0x3FEAED548C93C4F7 0xBFEAED548C93C4F7 0x3FED18F6EA698997 0xBFE1689EF860102C) 0 = true := by
  decide +kernel

/-- V43.11: COS.S. -/
theorem test_cos_V43_11 :
    answers 0b011#3 0x00000024#32 (vec32 0 0x80000000 0x7F800000 0x7FC00000) 0 0 0b00#2
      (vec32 0x3F800000 0x3F800000 0xFFC00000 0x7FC00000) 0 = true := by
  decide +kernel

/-- V43.13: COS.S. -/
theorem test_cos_V43_13 :
    answers 0b111#3 0x00000024#32 (vec32 0x40490FDB 0x3FC90FDB 0x4096CBE4 0xC0490FDB) 0 0 0b00#2
      (vec32 0xBF800000 0x32410750 0xB45B91EF 0xBF800000) 0 = true := by
  decide +kernel

/-- V43.17: SINCOS.S. -/
theorem test_sincos_V43_17 :
    answers 0b011#3 0x00000025#32 (vec32 0x3F800000 0xBF800000 0x40000000 0x41200000) 0 0 0b00#2
      (vec32 0x3F576AA4 0xBF576AA4 0x3F68C7B9 0xBF0B44F4)
      (vec32 0x3F0A5140 0x3F0A5140 0xBED51132 0xBF56CD67) = true := by
  decide +kernel

/-- V43.22: SINCOS.D. -/
theorem test_sincos_V43_22 :
    answers 0b111#3 0x00000065#32 (vec64 0 0x8000000000000000 0x400921FB54442D18 0x7FF0000000000000) 0 0 0b00#2
      (vec64 0 0 0 0xFFF8000000000000)
      (vec64 0x3FF0000000000000 0x3FF0000000000000 0xBFF0000000000000 0xFFF8000000000000) = true := by
  decide +kernel

/-- V44.2: TAN.S. -/
theorem test_tan_V44_2 :
    answers 0b011#3 0x00000026#32 (vec32 0x3FC00000 0x3FC90FDB 0xBF490FDB 0x40000000) 0 0 0b00#2
      (vec32 0x41619F63 0xFF800000 0xBF800000 0xC00BD7B3) 0 = true := by
  decide +kernel

/-- V44.16: TAN.D. -/
theorem test_tan_V44_16 :
    answers 0b111#3 0x00000066#32 (vec64 0 0x3FE921FB54442D18 0x3FF0000000000000 0x3FF8000000000000) 0 0 0b00#2
      (vec64 0 0x3FEFFFFFF8C43243 0x3FF8EB245CEF9671 0x402C33ED50B8877E) 0 = true := by
  decide +kernel

/-- V44.10: TAN.A.S. -/
theorem test_tanapprox_V44_10 :
    answers 0b011#3 0x000000A6#32 (vec32 0 0x3F490FDB 0x3F800000 0x3FC00000) 0 0 0b00#2
      (vec32 0 0x3F7FD48A 0x3FC70CD8 0x4161BA48) 0 = true := by
  decide +kernel

/-- V44.18: TAN.A.D. -/
theorem test_tanapprox_V44_18 :
    answers 0b111#3 0x000000E6#32 (vec64 0 0x3FE921FB54442D18 0x3FF0000000000000 0x3FF8000000000000) 0 0 0b00#2
      (vec64 0 0x3FEFFA90E1ECCD22 0x3FF8E19AFA6C9DF5 0x402C37485BDB14E1) 0 = true := by
  decide +kernel

/-- V45.5: ATAN.S. -/
theorem test_atan_V45_5 :
    answers 0b111#3 0x00000027#32 (vec32 0x7F800001 0xBF800001 0xC0000000 0x7149F2CA) 0 0 0b00#2
      (vec32 0x7FC00001 0xBF490FDC 0xBF8DB70D 0x3FC90FDB) 0 = true := by
  decide +kernel

/-- V45.18: ATAN.D. -/
theorem test_atan_V45_18 :
    answers 0b111#3 0x00000067#32 (vec64 0 0x3FF0000000000000 0xBFF0000000000000 0x4000000000000000) 0 0 0b00#2
      (vec64 0 0x3FE921FB583690EB 0xBFE921FB583690EB 0x3FF1B6E19124A298) 0 = true := by
  decide +kernel

/-- V95.13: ATAN2.S. -/
theorem test_atan2_V95_13 :
    answers 0b011#3 0x00000028#32 (vec32 0 0x80000000 0 0x80000000)
      (vec32 0x40400000 0x40400000 0xC0400000 0xC0400000) 0 0b00#2
      (vec32 0 0x80000000 0x40490FDB 0xC0490FDB) 0 = true := by
  decide +kernel

/-- V45.16: ATAN2.S.SB. -/
theorem test_atan2_V45_16 :
    answers 0b011#3 0x00000128#32 (vec32 0x3F800000 0x40000000 0x40400000 0x40800000)
      (vec32 0x40000000 0 0 0) 0 0b00#2 (vec32 0x3EED6338 0x3F490FDB 0x3F7B985F 0x3F8DB70D) 0 = true := by
  decide +kernel

/-- V46.9: LDCONST.D #17. -/
theorem test_ldconst_V46_9 :
    answers 0b011#3 0x00002269#32 0 0 0 0b00#2 (vec64 0x3FF0000000000000 0 0 0) 0 = true := by
  decide +kernel

/-- V46.15: LDCOEF.S #15. -/
theorem test_ldcoef_V46_15 :
    answers 0b011#3 0x00001E2A#32 0 0 0 0b00#2 (vec32 0xBD96DEC3 0x3D286F68 0xBC77EE7B 0x3B2BD9FD) 0 = true := by
  decide +kernel

/-- V46.24: RDCAP.S. -/
theorem test_rdcap_V46_24 :
    answers 0b101#3 0x0000002B#32 0 0 0 0b00#2 (vec32 0x00000001 0 0 0) 0 = true := by
  decide +kernel

/-- V46.27: RDCAP.D. -/
theorem test_rdcap_V46_27 :
    answers 0b111#3 0x0000006B#32 0 0 0 0b00#2 (vec64 0x0000000000000007 0 0 0) 0 = true := by
  decide +kernel

/-- V46.29: RDSTAT.D. -/
theorem test_rdstat_V46_29 :
    answers 0b011#3 0x0000006C#32 0 0 0 0b00#2 (vec64 0 0 0 0) 0 = true := by
  decide +kernel

/-- R201: the reference choice of the fallback sine at x = 2. -/
theorem test_nearestSin : nearestSin .f32 0x40000000#32 = 0x3F68C7B7#32 := by decide +kernel

/-- R194: the fallback's special values; V43.8 lanes 0 and 1. -/
theorem test_sin_fallback_special :
    answers 0b000#3 0x00000023#32 (vec32 0 0x80000000 0xFF800000 0x7F800001) 0 0 0b00#2
      (vec32 0 0x80000000 0xFFC00000 0x7FC00001) 0 = true := by
  decide +kernel

/-- V60.1 and V60.14: the illegal response, with the operands unread. -/
theorem test_illegal :
    answers 0b011#3 0x00000000#32 (vec32 1 2 3 4) 5 6 0b01#2 0 0 = true ∧
      answers 0b011#3 0x000101AD#32 (vec32 1 2 3 4) 5 6 0b01#2 0 0 = true := by
  decide +kernel

/-- P4 step 5: RDSTAT after an illegal response was delivered. -/
theorem test_rdstat_after_illegal :
    (match exec (.rdstat .f32) { holding 0b101#3 0x0000002C#32 0 0 0 with status := 1 } with
      | .next t => t.res0 == vec32 1 0 0 0 && t.status == 1#32
      | _ => false) = true := by
  decide +kernel

/-- R22: `CAP_IN = 101` gives `CAP = 001`. -/
theorem test_sanitise : sanitise 0b101#3 = 0b001#3 ∧ sanitise 0b110#3 = 0b000#3 ∧ sanitise 0b111#3 = 0b111#3 := by decide

/-! ### Pins and states for the statements about the clocked machine -/

/-- A reset edge. -/
def resetPins (capIn : BitVec 3) : Pins := { Pins.idle with rstN := false, capIn := capIn }

/-- A command offered. -/
def offerPins (w : Word) (ready : Bool) : Pins :=
  { Pins.idle with cmdValid := true, cmdWord := w, opa := vec32 1 2 3 4, rspReady := ready }

/-- The response taken, no command offered. -/
def takePins : Pins := { Pins.idle with rspReady := true }

/-- An empty machine after reset that accepts commands. -/
def openState (inputs : List Pins) : State := { State.reset with cmdReady := true, inputs := inputs }

/-- A machine that presents the response to the command `w`, with further commands behind it. -/
def presenting (status : BitVec 32) (w : Word) (rest : List Entry) (inputs : List Pins) : State :=
  let c : Command := { word := w, a := vec32 1 2 3 4, b := 0, c := 0 }
  let r := (transact { State.reset.mstu with status := status } c).2
  { State.reset with
    status := status, q := { cmd := c, wait := 0 } :: rest, rspValid := true, rspCode := r.code, res0 := r.res0,
    res1 := r.res1, inputs := inputs }

theorem cap_reset : State.reset.cap = 0b011#3 := by decide

theorem zero_reserved : (0#32).extractLsb' 1 31 = 0 := by decide

theorem one_le_depth : 1 ≤ Config.depth := Nat.succ_le_succ (Nat.zero_le _)

/-- The reset state, whatever strap and ROM R50 allows, keeps the invariant once inputs are given. -/
theorem test_inv_openState (inputs : List Pins) : Inv Config.depth (openState inputs) where
  capLegal := .inr (.inr (.inl cap_reset))
  statusReserved := zero_reserved
  romsWf := ⟨coefRomWf_refRom32, coefRomWf_refRom64⟩
  queueFits := ⟨Nat.zero_le _, fun _ => one_le_depth⟩
  presentedRight := fun h => by simp [openState, State.reset, State.resetWith] at h

theorem test_inv_openState_two (inputs : List Pins) : Inv 2 (openState inputs) where
  capLegal := .inr (.inr (.inl cap_reset))
  statusReserved := zero_reserved
  romsWf := ⟨coefRomWf_refRom32, coefRomWf_refRom64⟩
  queueFits := ⟨Nat.zero_le _, fun _ => Nat.zero_lt_two⟩
  presentedRight := fun h => by simp [openState, State.reset, State.resetWith] at h

theorem test_inv_presenting (status : BitVec 32) (w : Word) (inputs : List Pins) (h : status.extractLsb' 1 31 = 0) :
    Inv Config.depth (presenting status w [] inputs) where
  capLegal := .inr (.inr (.inl cap_reset))
  statusReserved := h
  romsWf := ⟨coefRomWf_refRom32, coefRomWf_refRom64⟩
  queueFits := ⟨one_le_depth, fun h => by simp [presenting, State.reset, State.resetWith] at h⟩
  presentedRight := fun _ => ⟨_, _, rfl, rfl⟩

theorem legal_add : Legal 0x00000001#32 := by
  unfold Legal
  decide

theorem illegal_zero : ¬ Legal 0x00000000#32 := by
  unfold Legal
  decide

/-! ### The hypotheses of the statements, met: encodings -/

/-- DecodeEncode: the three commands with a limit, at their limits. -/
theorem test_meets_DecodeEncode :
    (Instr.bcast .f32 3).wellFormed = true ∧ (Instr.ldconst .f64 22).wellFormed = true ∧
      (Instr.ldcoef .f32 17).wellFormed = true ∧ (Instr.sin .f64 true).wellFormed = true := by
  decide

/-- EncodeDecode: a word that decodes. -/
theorem test_meets_EncodeDecode : decode 0x0000222A#32 = .ok (.ldcoef .f32 17) := by decide

/-- DecodeIffLegal: an illegal word, and the legal and illegal neighbours at BCAST's limit. -/
theorem test_meets_DecodeIffLegal :
    ¬ Legal 0x00000000#32 ∧ ¬ Legal 0x0000002D#32 ∧ Legal 0x0000002C#32 ∧ Legal 0x00000620#32 ∧ ¬ Legal 0x00000820#32 := by
  refine ⟨?_, ?_, ?_, ?_, ?_⟩ <;>
  · simp only [Legal]
    decide

/-- ReservedFieldRefused: the first and the last bit of RSV. -/
theorem test_meets_ReservedFieldRefused :
    (0x00010001#32).getLsbD 16 = true ∧ (0x80000001#32).getLsbD 31 = true := by
  decide

/-- A word that is legal and one that is not, for TwoResponseCodes. -/
theorem test_meets_TwoResponseCodes : Legal 0x00000001#32 ∧ ¬ Legal 0x00000000#32 := ⟨legal_add, illegal_zero⟩

/-! ### The hypotheses met: the clocked machine -/

/-- StepRunsDecoded, first clause: a command whose wait is over, at an edge with no reset. -/
theorem test_meets_StepRunsDecoded_due :
    let s := holding 0b011#3 0x00000001#32 0 0 0
    s.pins.rstN = true ∧
      (∃ c, dueCommand (handshake Config.depth latencyOf s.pins (popInputs s)) = some c ∧
        decode c.word = .ok (.add .f32 false)) :=
  ⟨rfl, _, rfl, rfl⟩

/-- StepRunsDecoded, second clause: the largest legal word. -/
theorem test_meets_StepRunsDecoded_word : 0x2C69 < 2 ^ 32 ∧ decode (BitVec.ofNat 32 0x2C69) = .ok (.ldconst .f64 22) := by
  decide

/-- StatusAtDelivery: a reset edge. -/
theorem test_meets_StatusAtDelivery_reset :
    let s := presenting 1 0 [] [resetPins 0b111#3]
    Inv Config.depth s ∧ s.pins.rstN = false ∧ ∃ t, step s = .next t :=
  ⟨test_inv_presenting _ _ _ (by decide), rfl, _, rfl⟩

/-- StatusAtDelivery: nothing delivered. -/
theorem test_meets_StatusAtDelivery_held :
    let s := presenting 0 0 [] []
    Inv Config.depth s ∧ s.pins.rstN = true ∧ (s.rspValid && s.pins.rspReady) = false ∧ ∃ t, step s = .next t :=
  ⟨test_inv_presenting _ _ _ (by decide), rfl, rfl, _, rfl⟩

/-- StatusAtDelivery: the response to a legal command delivered, `STATUS.ILL` set before. -/
theorem test_meets_StatusAtDelivery_legal :
    let s := presenting 1 0x00000001#32 [] [takePins]
    Inv Config.depth s ∧ s.pins.rstN = true ∧ (s.rspValid && s.pins.rspReady) = true ∧
      (∃ e rest, s.q = e :: rest ∧ Legal e.cmd.word) ∧ s.status.getLsbD 0 = true ∧ ∃ t, step s = .next t ∧ t.status = 1 :=
  ⟨test_inv_presenting _ _ _ (by decide), rfl, rfl, ⟨_, _, rfl, legal_add⟩, by decide, _, rfl, by decide⟩

/-- StatusAtDelivery: the response to an illegal command delivered. -/
theorem test_meets_StatusAtDelivery_illegal :
    let s := presenting 0 0x00000000#32 [] [takePins]
    Inv Config.depth s ∧ s.pins.rstN = true ∧ (s.rspValid && s.pins.rspReady) = true ∧
      (∃ e rest, s.q = e :: rest ∧ ¬ Legal e.cmd.word) ∧ ∃ t, step s = .next t ∧ t.status = 1 :=
  ⟨test_inv_presenting _ _ _ (by decide), rfl, rfl, ⟨_, _, rfl, illegal_zero⟩, _, rfl, by decide⟩

/-- StatusAtDelivery: an RDSTAT due at the edge that delivers an illegal response reads 1. -/
theorem test_meets_StatusAtDelivery_rdstat :
    let s := presenting 0 0 [{ cmd := { word := 0x0000002C#32, a := 0, b := 0, c := 0 }, wait := 1 }] [takePins]
    s.pins.rstN = true ∧
      (∃ c, dueCommand (handshake Config.depth latencyOf s.pins (popInputs s)) = some c ∧
        decode c.word = .ok (.rdstat .f32)) ∧ ∃ t, step s = .next t ∧ t.res0 = 1 :=
  ⟨rfl, ⟨_, rfl, rfl⟩, _, rfl, by decide⟩

/-- StatusAtDelivery's last clause with the invariant: an RDSTAT alone in `Q`. -/
theorem test_meets_StatusAtDelivery_due :
    let s : State := { holding 0b011#3 0x0000002C#32 0 0 0 with inputs := [] }
    Inv Config.depth s ∧
      (∃ c, dueCommand (handshake Config.depth latencyOf s.pins (popInputs s)) = some c ∧
        decode c.word = .ok (.rdstat .f32)) ∧ ∃ t, step s = .next t :=
  ⟨{ capLegal := .inr (.inr (.inl cap_reset))
     statusReserved := zero_reserved
     romsWf := ⟨coefRomWf_refRom32, coefRomWf_refRom64⟩
     queueFits := ⟨one_le_depth, fun h => by simp [holding, State.resetWith] at h⟩
     presentedRight := fun h => by simp [holding, State.resetWith] at h },
   ⟨_, rfl, rfl⟩, _, rfl⟩

/-- ResetEdge and CapSanitised: a reset edge with a command in flight, and a next edge with no reset. -/
theorem test_meets_ResetEdge :
    let s := presenting 1 0 [] [resetPins 0b101#3, Pins.idle]
    s.pins.rstN = false ∧ ∃ t, step s = .next t ∧ t.pins.rstN = true ∧ t.cap = 0b001#3 :=
  ⟨rfl, _, rfl, rfl, by decide⟩

/-- CapSanitised, CapInIgnored and IdleWiresIgnored: an edge with no reset and other values on idle wires. -/
theorem test_meets_CapInIgnored :
    let p : Pins := { Pins.idle with capIn := 0b111#3, cmdWord := 0xFFFFFFFF#32 }
    let s := openState [p]
    s.inputs = p :: [] ∧ p.rstN = true ∧ (p.cmdValid && s.cmdReady) = false ∧ s.rspValid = false ∧
      ∃ t, step s = .next t :=
  ⟨rfl, rfl, rfl, rfl, _, rfl⟩

/-- ResponseHeld: a response presented and not taken. -/
theorem test_meets_ResponseHeld :
    let s := presenting 0 0x00000001#32 [] []
    s.pins.rstN = true ∧ s.rspValid = true ∧ s.pins.rspReady = false ∧ (∃ e rest, s.q = e :: rest) ∧
      ∃ t, step s = .next t :=
  ⟨rfl, rfl, rfl, ⟨_, _, rfl⟩, _, rfl⟩

/-- QueueInOrder and CommandReady: one edge that delivers and accepts, as edge 6 of R300. -/
theorem test_meets_QueueInOrder :
    let s : State := { presenting 0 0x00000001#32 [] [offerPins 0x00000002#32 true] with cmdReady := true }
    s.pins.rstN = true ∧ s.q ≠ [] ∧ (s.rspValid && s.pins.rspReady) = true ∧ (s.pins.cmdValid && s.cmdReady) = true ∧
      ∃ t, edge 2 (fun _ _ => 3) s = .next t ∧ t.q.length = 1 ∧ t.cmdReady = true :=
  ⟨rfl, List.cons_ne_nil _ _, rfl, rfl, _, rfl, by decide, by decide⟩

/-- LatencyExact: one edge and two edges of a machine of latency 2, the last within its latency. -/
theorem test_meets_LatencyExact :
    let s := openState [offerPins 0x00000001#32 false]
    s.q = [] ∧ s.rspValid = false ∧ s.cmdReady = true ∧ s.pins.rstN = true ∧ s.pins.cmdValid = true ∧ NoReset 2 s ∧
      (runEdges 1 (fun _ _ => 2) 1 s).2.2.rspValid = false ∧ (runEdges 1 (fun _ _ => 2) 2 s).2.2.rspValid = true :=
  ⟨rfl, rfl, rfl, rfl, rfl, by simp [NoReset, openState, offerPins, Pins.idle], by decide, by decide⟩

/-- InvariantAtReset: a ROM with no approximate table at all. -/
def bareRom32 : CoefRom .f32 :=
  { refRom32 with
    sinA := { refRom32.sinA with present := false }
    cosA := { refRom32.cosA with present := false }
    tanA := { refRom32.tanA with present := false }
    atanA := { refRom32.atanA with present := false } }

theorem test_meets_InvariantAtReset : coefRomWf bareRom32 = true ∧ coefRomWf refRom64 = true := by decide

/-- InvariantKept: an edge that presents a response. -/
theorem test_meets_InvariantKept :
    let s := presenting 0 0x00000001#32 [] [takePins]
    Inv Config.depth s ∧ ∃ t, step s = .next t :=
  ⟨test_inv_presenting _ _ _ (by decide), _, rfl⟩

/-- RunIsFold: edges that accept a command and deliver its response. -/
theorem test_meets_RunIsFold :
    let s := openState [offerPins 0x00000001#32 true, takePins]
    Inv 2 s ∧ NoReset 2 s ∧ (runEdges 2 (fun _ _ => 1) 2 s).2.1.length = 1 :=
  ⟨test_inv_openState_two _, by simp [NoReset, openState, offerPins, takePins, Pins.idle], by decide⟩

/-- TimingInvisible: the same command, with latencies 1 and 2 and depths 2 and 2, one response delivered in each run. -/
theorem test_meets_TimingInvisible :
    let s := openState [offerPins 0x00000001#32 true, takePins]
    let s' := openState [offerPins 0x00000001#32 true, takePins, takePins]
    Inv 2 s ∧ Inv 2 s' ∧ s.q = [] ∧ s'.q = [] ∧ s.mstu = s'.mstu ∧ NoReset 2 s ∧ NoReset 3 s' ∧
      (runEdges 2 (fun _ _ => 1) 2 s).1 = (runEdges 2 (fun _ _ => 2) 3 s').1 ∧
      (runEdges 2 (fun _ _ => 1) 2 s).2.1.length = 1 ∧ (runEdges 2 (fun _ _ => 2) 3 s').2.1.length = 1 :=
  ⟨test_inv_openState_two _, test_inv_openState_two _, rfl, rfl, rfl,
    by simp [NoReset, openState, offerPins, takePins, Pins.idle],
    by simp [NoReset, openState, offerPins, takePins, Pins.idle], by decide, by decide, by decide⟩

/-! ### The hypotheses met: whole-machine rules -/

/-- OperandsRead and LanesApart: SQR on states that differ on the unread buses and in bits 255:128 of A. -/
theorem test_meets_OperandsRead :
    let s := holding 0b011#3 0x00000005#32 (vec32 1 2 3 4) 0 0
    let s' := holding 0b011#3 0x00000005#32 (vec64 0x200000001 0x400000003 7 8) 9 10
    s.cap = s'.cap ∧ s.krom32 = s'.krom32 ∧ s.krom64 = s'.krom64 ∧ s.mstu = s'.mstu ∧ s.command ≠ s'.command ∧
      (Instr.sqr .f32).operands = 1 ∧ (Instr.sqr .f32).crossLane = false ∧
      ∀ j : Fin 4, laneA s .f32 j = laneA s' .f32 j := by
  refine ⟨rfl, rfl, rfl, rfl, by decide, rfl, rfl, by decide⟩

/-- LanesApart: ADD on states that differ in lane 0 and agree in lane 3. -/
theorem test_meets_LanesApart :
    let s := holding 0b011#3 0x00000001#32 (vec32 1 2 3 4) (vec32 5 6 7 8) 0
    let s' := holding 0b011#3 0x00000001#32 (vec32 9 2 3 4) (vec32 9 6 7 8) 0
    (Instr.add .f32 false).crossLane = false ∧ s.mstu = s'.mstu ∧ laneA s .f32 3 = laneA s' .f32 3 ∧
      laneB s .f32 false 3 = laneB s' .f32 false 3 ∧ laneC s .f32 false 3 = laneC s' .f32 false 3 ∧
      laneA s .f32 0 ≠ laneA s' .f32 0 := by
  refine ⟨rfl, rfl, by decide, by decide, by decide, by decide⟩

/-- PathsAgree: a command of each clause, at 001 and 011 for the second. -/
theorem test_meets_PathsAgree :
    (Instr.add .f32 false).pathFree = true ∧ (Instr.rsqrt .f64 false).pathFree = true ∧
      (∀ F, Instr.tan .f32 ≠ .rdcap F) ∧ (0b001#3).getLsbD 0 = (0b011#3).getLsbD 0 ∧
      (0b001#3).getLsbD 2 = (0b011#3).getLsbD 2 := by
  refine ⟨rfl, rfl, by intro F; simp, by decide, by decide⟩

/-- FallbackUnfused: F32 at 000, F64 at 011, and the values 001 and 011. -/
theorem test_meets_FallbackUnfused :
    fast .f32 0b000#3 = false ∧ fast .f64 0b011#3 = false ∧ (openState []).cap = 0b011#3 := by
  decide

/-- TanResult's parity (R211): 3 and -1 are odd, 2 and 2^24 + 2 are not, nor is an infinity. -/
theorem test_parity :
    isOddIntegral .f32 0x40400000#32 = true ∧ isOddIntegral .f32 0xBF800000#32 = true ∧
      isOddIntegral .f32 0x40000000#32 = false ∧ isOddIntegral .f32 0x4B800001#32 = false ∧
      isOddIntegral .f32 0x7F800000#32 = false := by
  decide +kernel

/-- TiersDegrade: a machine with none of the approximate tables, and one on the fallback path. -/
theorem test_meets_TiersDegrade :
    let s := State.resetWith 0b011#3 bareRom32 refRom64
    tablePresent (s.krom .f32) .sinA = false ∧ tablePresent (s.krom .f32) .cosA = false ∧
      tablePresent (s.krom .f32) .tanA = false ∧ tablePresent (s.krom .f32) .atanA = false ∧
      fast .f64 s.cap = false := by
  decide

/-! ### The hypotheses met: results -/

/-- CrossLaneResult, ConstantRomResult and CoefficientRomResult: the first and the last index past each limit. -/
theorem test_meets_indices :
    3 < (4#7).toNat ∧ 3 < (127#7).toNat ∧ 22 < (23#7).toNat ∧ 22 < (127#7).toNat ∧ 17 < (18#7).toNat ∧
      coefRomWf (State.reset.krom .f32) = true ∧ coefRomWf (State.reset.krom .f64) = true := by
  decide

/-! ### The hypotheses met: the primitives -/

/-- SumRounded: the largest finite lanes (their sum is past the overflow bound), and a sum that is exactly 0. -/
theorem test_meets_SumRounded :
    isFinite .f32 0x7F7FFFFF#32 = true ∧
      overflowBound .f32 ≤ laneValue .f32 0x7F7FFFFF#32 + laneValue .f32 0x7F7FFFFF#32 ∧
      isFinite .f32 0x3F800000#32 = true ∧ isFinite .f32 0xBF800000#32 = true ∧
      laneValue .f32 0x3F800000#32 + laneValue .f32 0xBF800000#32 = 0 ∧
      |laneValue .f32 0x3F800000#32 + laneValue .f32 0x00000001#32| < overflowBound .f32 := by
  decide +kernel

/-- SumRounded, zero differences and infinities: 1 - 1 and (-0) - (+0), +∞ with a finite lane, with itself and with -∞. -/
theorem test_meets_SumRounded_special :
    laneValue .f32 0x3F800000#32 - laneValue .f32 0x3F800000#32 = 0 ∧
      (isFinite .f32 0x80000000#32 = true ∧ laneValue .f32 0x80000000#32 - laneValue .f32 0x00000000#32 = 0) ∧
      (isInf .f32 0x7F800000#32 = true ∧ isFinite .f32 0xFF7FFFFF#32 = true) ∧
      (isInf .f32 0xFF800000#32 = true ∧ signbit .f32 0x7F800000#32 ≠ signbit .f32 0xFF800000#32) := by
  decide +kernel

/-- ProductRounded: the smallest and the largest finite lanes, and a divisor that is not zero. -/
theorem test_meets_ProductRounded :
    isFinite .f32 0x00000001#32 = true ∧ isFinite .f32 0xFF7FFFFF#32 = true ∧ isZero .f32 0x00000001#32 = false ∧
      isFinite .f64 0x0000000000000001#64 = true ∧ isZero .f64 0x8000000000000001#64 = false := by
  decide +kernel

/-- ProductRounded, zeros and infinities: -∞ with the smallest lane, with +∞ and with +0, and the dividends of a zero. -/
theorem test_meets_ProductRounded_special :
    isInf .f32 0xFF800000#32 = true ∧
      (isNaN .f32 0x00000001#32 = false ∧ isZero .f32 0x00000001#32 = false ∧ isFinite .f32 0x00000001#32 = true) ∧
      (isNaN .f32 0x7F800000#32 = false ∧ isZero .f32 0x7F800000#32 = false) ∧
      isFinite .f32 0x00000000#32 = true ∧ isZero .f32 0x80000000#32 = true := by
  decide

/-- FusedRounded: an exact zero, 1 · 1 + (-1). -/
theorem test_meets_FusedRounded :
    isFinite .f32 0x3F800000#32 = true ∧ isFinite .f32 0xBF800000#32 = true ∧
      laneValue .f32 0x3F800000#32 * laneValue .f32 0x3F800000#32 + laneValue .f32 0xBF800000#32 = 0 := by
  decide +kernel

/-- FusedRounded, infinities: +∞ · 1 + 1, +∞ · 1 + ∞ and 1 · 1 - ∞. -/
theorem test_meets_FusedRounded_special :
    (isInf .f32 0x7F800000#32 = true ∧ isNaN .f32 0x3F800000#32 = false ∧ isZero .f32 0x3F800000#32 = false ∧
        isInf .f32 0x3F800000#32 = false) ∧
      (isNaN .f32 0x7F800000#32 = false ∧
        signbit .f32 0x7F800000#32 = (signbit .f32 0x7F800000#32 ^^ signbit .f32 0x3F800000#32)) ∧
      (isFinite .f32 0x3F800000#32 = true ∧ isInf .f32 0xFF800000#32 = true) := by
  decide

/-- RootRounded: the smallest positive lane, -0 and +∞. -/
theorem test_meets_RootRounded :
    isFinite .f32 0x00000001#32 = true ∧ signbit .f32 0x00000001#32 = false ∧ isFinite .f32 0x80000000#32 = true ∧
      isZero .f32 0x80000000#32 = true ∧ isInf .f32 0x7F800000#32 = true ∧ signbit .f32 0x7F800000#32 = false := by
  decide

/-- IntegralRounded: the tie 0.5, whose nearest integers are 0 and 1; a zero and an infinity. -/
theorem test_meets_IntegralRounded :
    isFinite .f32 0x3F000000#32 = true ∧ |laneValue .f32 0x3F000000#32 - (0 : ℤ)| = 1 / 2 ∧
      isZero .f32 0x80000000#32 = true ∧ isInf .f32 0xFF800000#32 = true := by
  decide +kernel

/-- NanRules: the first and the last NaN patterns, infinities of both signs, zeros, and a value below zero. -/
theorem test_meets_NanRules :
    isNaN .f32 0x7F800001#32 = true ∧ isNaN .f32 0xFFFFFFFF#32 = true ∧ isNaN .f32 0x3F800000#32 = false ∧
      isInf .f32 0x7F800000#32 = true ∧ isInf .f32 0xFF800000#32 = true ∧
      signbit .f32 0x7F800000#32 ≠ signbit .f32 0xFF800000#32 ∧ isZero .f32 0x80000000#32 = true ∧
      isNaN .f32 0x80000001#32 = false ∧ signbit .f32 0x80000001#32 = true ∧ isZero .f32 0x80000001#32 = false ∧
      isNaN .f64 0x7FF0000000000001#64 = true ∧ 31 < Fmt.f32.width := by
  decide

/-- NanRules, the last clause: +∞ · 1 + (-∞). -/
theorem test_meets_NanRules_fused :
    isInf .f32 0x7F800000#32 = true ∧ isNaN .f32 0x3F800000#32 = false ∧ isZero .f32 0x3F800000#32 = false ∧
      isInf .f32 0xFF800000#32 = true ∧
      signbit .f32 0xFF800000#32 ≠ (signbit .f32 0x7F800000#32 ^^ signbit .f32 0x3F800000#32) := by
  decide

/-- CompareIsByValue: the two zeros, the largest finite lane, a NaN. -/
theorem test_meets_CompareIsByValue :
    isFinite .f32 0x80000000#32 = true ∧ isFinite .f32 0x00000000#32 = true ∧ isFinite .f32 0x7F7FFFFF#32 = true ∧
      isNaN .f32 0x7FC00000#32 = true := by
  decide

/-- ClampAndAbs: equal bounds of unlike sign bits, and the widest bounds. -/
theorem test_meets_ClampAndAbs :
    isFinite .f32 0x00000000#32 = true ∧ isFinite .f32 0x80000000#32 = true ∧
      fle .f32 0x00000000#32 0x80000000#32 = true ∧ isFinite .f32 0xFF7FFFFF#32 = true ∧
      isFinite .f32 0x7F7FFFFF#32 = true ∧ fle .f32 0xFF7FFFFF#32 0x7F7FFFFF#32 = true := by
  decide

/-- RemainderTable: an operand pair for each row. -/
theorem test_meets_RemainderTable :
    (isFinite .f32 0x00000000#32 = true ∧ isZero .f32 0x80000000#32 = true) ∧
      (isFinite .f32 0x7F7FFFFF#32 = true ∧ isInf .f32 0xFF800000#32 = true) ∧
      (isInf .f32 0x7F800000#32 = true ∧ isNaN .f32 0x00000000#32 = false) ∧
      (isZero .f32 0x80000000#32 = true ∧ isFinite .f32 0x00000001#32 = true ∧ isZero .f32 0x00000001#32 = false) ∧
      isNaN .f32 0x7F800001#32 = true ∧ isNaN .f32 0xFF800000#32 = false := by
  decide

/-- EstimateLimits: every row of R136, at the ends of the range where 1/a is normal. -/
theorem test_meets_EstimateLimits :
    (isZero .f32 0x80000000#32 = true ∧ isInf .f32 0xFF800000#32 = true ∧ isNaN .f32 0x7F800001#32 = true) ∧
      (isFinite .f32 0x00200001#32 = true ∧ reciprocalNormal .f32 0x00200001#32 = true) ∧
      (isFinite .f32 0x7E800000#32 = true ∧ reciprocalNormal .f32 0x7E800000#32 = true) ∧
      (reciprocalNormal .f32 0x00200000#32 = false ∧ reciprocalNormal .f32 0x7E800001#32 = false) ∧
      (isFinite .f32 0x80000001#32 = true ∧ isZero .f32 0x80000001#32 = false ∧ signbit .f32 0x80000001#32 = true) ∧
      isFinite .f32 0x00000001#32 = true ∧ isZero .f32 0x00000001#32 = false ∧ signbit .f32 0x00000001#32 = false := by
  decide +kernel

/-- ReferenceSpecials: ±0, ±∞ and NaNs. -/
theorem test_meets_ReferenceSpecials :
    isZero .f32 0x80000000#32 = true ∧ isInf .f32 0xFF800000#32 = true ∧ isNaN .f32 0xFF800001#32 = true := by
  decide

/-- ReferenceWithinBound: a zero, and the smallest and the largest finite lanes of both formats. -/
theorem test_meets_ReferenceWithinBound :
    isFinite .f32 0x80000000#32 = true ∧ isFinite .f32 0x00000001#32 = true ∧ isFinite .f32 0xFF7FFFFF#32 = true ∧
      isFinite .f64 0x0000000000000001#64 = true ∧ isFinite .f64 0x7FEFFFFFFFFFFFFF#64 = true := by
  decide

/-- ReductionCorners: the fold's boundary and ±π, beside the classes of `test_meets_ReferenceSpecials`. -/
theorem test_meets_ReductionCorners :
    magnitude .f32 0xBFC90FDB#32 ≤ magnitude .f32 (constLane .f32 4) ∧
      magnitude .f32 0xC0490FDB#32 = magnitude .f32 (constLane .f32 3) ∧
      magnitude .f64 0x400921FB54442D18#64 = magnitude .f64 (constLane .f64 3) := by
  decide

/-- A ROM is finite when all its listed coefficients are. -/
theorem finiteRom_of_all {F : Fmt} {r : CoefRom F} (h : ∀ t, (tableOf r t).coefs.all (isFinite F) = true) :
    FiniteRom r := by
  intro t k
  unfold coef
  cases hk : (tableOf r t).coefs[k]? with
  | none => exact isFinite_of_isZero (by simp [isZero, magnitude])
  | some x => exact List.all_eq_true.mp (h t) x (List.mem_of_getElem? hk)

/-- SinCosCorners and TanAtanCorners: both reference ROMs have finite coefficients only, and both formats have a fast path. -/
theorem test_meets_SinCosCorners :
    FiniteRom refRom32 ∧ FiniteRom refRom64 ∧ fast .f32 0b001#3 = true ∧ fast .f64 0b111#3 = true := by
  refine ⟨finiteRom_of_all fun t => ?_, finiteRom_of_all fun t => ?_, rfl, rfl⟩ <;>
  · cases t <;> decide +kernel

/-- AtanTwoRows: operands (y, x) for rows 1 to 5. -/
theorem test_meets_AtanTwoRows :
    (isZero .f32 0x80000000#32 = true ∧ flt .f32 (constLane .f32 0) 0x00000001#32 = true) ∧
      (isZero .f32 0x00000000#32 = true ∧ flt .f32 0x80000001#32 (constLane .f32 0) = true) ∧
      zero .f32 true = 0x80000000#32 ∧
      (isZero .f32 0x80000000#32 = true ∧ flt .f32 0x80000001#32 (constLane .f32 0) = true) ∧
      (isInf .f32 0xFF800000#32 = true ∧ isInf .f32 0x7F800000#32 = true) ∧
      (isInf .f32 0x7F800000#32 = true ∧ isFinite .f32 0x00000000#32 = true) := by
  decide

/-- AtanTwoRows, row 6: y = 1 and x = -1 meet none of the rows 1 to 5; a NaN does not either. -/
theorem test_meets_AtanTwoRows_general :
    isZero .f32 0x3F800000#32 = false ∧ isZero .f32 0xBF800000#32 = false ∧ isInf .f32 0x3F800000#32 = false ∧
      isZero .f32 0x7FC00000#32 = false ∧ flt .f32 0x7FC00000#32 (constLane .f32 0) = false ∧
      flt .f32 (constLane .f32 0) 0x7FC00000#32 = false ∧ isInf .f32 0x7FC00000#32 = false ∧
      isNaN .f32 0x7FC00000#32 = true := by
  decide

/-- AtanTwoIdentities: a state whose four lanes meet the first four premises, and one for the fifth. -/
theorem test_meets_AtanTwoIdentities :
    let s := holding 0b011#3 0x28#32 (vec32 0 0x3F800000 0 0xBF800000) (vec32 0x3F800000 0 0xBF800000 0) 0
    let s' := holding 0b011#3 0x28#32 (vec32 0x7F800000 0 0 0) (vec32 0x7F800000 0 0 0) 0
    (laneA s .f32 0 = constLane .f32 0 ∧ laneB s .f32 false 0 = constLane .f32 1) ∧
      (laneA s .f32 1 = constLane .f32 1 ∧ laneB s .f32 false 1 = constLane .f32 0) ∧
      (laneA s .f32 2 = constLane .f32 0 ∧ laneB s .f32 false 2 = constLane .f32 2) ∧
      (laneA s .f32 3 = constLane .f32 2 ∧ laneB s .f32 false 3 = constLane .f32 0) ∧
      (laneA s' .f32 0 = infinity .f32 false ∧ laneB s' .f32 false 0 = infinity .f32 false) := by
  decide

/-- MixedWidths: two buses that differ above bit 127 only. -/
theorem test_meets_MixedWidths :
    (vec64 1 2 3 4).extractLsb' 0 128 = (vec64 1 2 0 0).extractLsb' 0 128 ∧ vec64 1 2 3 4 ≠ vec64 1 2 0 0 := by
  decide

/-- The reserved field of every encoding is 0; `LAWS.json`'s family is about this. -/
theorem test_reserved_zero : reservedOf (encode (.ldconst .f64 22)) = 0 := by decide

end Sys2Proof.Tests
end

section
/-!
PROOFS of 00_scope.md. Lanes do not interact (R9, R133): a per-lane command completes with a function of lane `j` of its
operands on lane `j` of its results, so two runs can be compared one lane at a time.
-/

namespace Sys2Proof.Machine

/-! ### Two states with the same registers and ROMs -/

section registers

variable {s s' : State}

theorem cap_eq_of_mstu_eq (h : s.mstu = s'.mstu) : s.cap = s'.cap := congrArg Mstu.cap h

theorem status_eq_of_mstu_eq (h : s.mstu = s'.mstu) : s.status = s'.status := congrArg Mstu.status h

theorem krom_eq_of_mstu_eq (h : s.mstu = s'.mstu) (F : Fmt) : s.krom F = s'.krom F := by
  cases F
  · exact congrArg Mstu.krom32 h
  · exact congrArg Mstu.krom64 h

end registers

/-! ### The commands of no operand (R75) -/

/-- LDCONST reads nothing of the state: its ROM is hard-wired, and past its limit it answers as illegal (R250). -/
theorem sameAnswer_exec_ldconst (s s' : State) (F : Fmt) (idx : BitVec 7) :
    SameAnswer (exec (.ldconst F idx) s) (exec (.ldconst F idx) s') := by
  by_cases h : idx.toNat ≤ 22
  · rw [exec_ldconst s F h, exec_ldconst s' F h]
    exact sameAnswer_answer1 s s' rfl
  · have hlt : 22 < idx.toNat := Nat.lt_of_not_le h
    rw [exec_ldconst_illegal s F hlt, exec_ldconst_illegal s' F hlt]
    exact sameAnswer_answerIllegal s s'

/-- LDCOEF reads the coefficient ROM of its format and nothing else (R251). -/
theorem sameAnswer_exec_ldcoef {s s' : State} {F : Fmt} (hk : s.krom F = s'.krom F) (idx : BitVec 7) :
    SameAnswer (exec (.ldcoef F idx) s) (exec (.ldcoef F idx) s') := by
  by_cases h : idx.toNat ≤ 17
  · rw [exec_ldcoef s F h, exec_ldcoef s' F h]
    exact sameAnswer_answer1 s s' (by rw [hk])
  · have hlt : 17 < idx.toNat := Nat.lt_of_not_le h
    rw [exec_ldcoef_illegal s F hlt, exec_ldcoef_illegal s' F hlt]
    exact sameAnswer_answerIllegal s s'

/-! ### Two answers that agree in one lane -/

/-- Both runs give a next state, with the same lane `j` on RES0 and on RES1. -/
def SameLane (F : Fmt) (j : Fin 4) (r r' : Result) : Prop :=
  ∃ t t' : State, r = .next t ∧ r' = .next t' ∧ busLane F t.res0 j = busLane F t'.res0 j ∧
    busLane F t.res1 j = busLane F t'.res1 j

/-- The same answer agrees in every lane. -/
theorem SameAnswer.sameLane {r r' : Result} (h : SameAnswer r r') (F : Fmt) (j : Fin 4) : SameLane F j r r' := by
  obtain ⟨t, t', hr, hr', -, h0, h1⟩ := h
  exact ⟨t, t', hr, hr', by rw [h0], by rw [h1]⟩

section answers

variable {i : Instr} {s s' : State} {F : Fmt} {j : Fin 4}

/-- Two completions agree in lane `j` when the lanes they complete with do. -/
theorem sameLane_of_completes {r0 r1 r0' r1' : Fin 4 → Lane F} (h : Completes i s F r0 r1)
    (h' : Completes i s' F r0' r1') (h0 : r0 j = r0' j) (h1 : r1 j = r1' j) :
    SameLane F j (exec i s) (exec i s') := by
  obtain ⟨t, ht, -, -, -, hr0, hr1, -, -⟩ := h
  obtain ⟨t', ht', -, -, -, hr0', hr1', -, -⟩ := h'
  exact ⟨t, t', ht, ht', by rw [hr0, hr0', h0], by rw [hr1, hr1', h1]⟩

theorem sameLane_of_answerUnary {f f' : Lane F → Lane F} (h : exec i s = answerUnary s F f)
    (h' : exec i s' = answerUnary s' F f') (hf : f = f') (ha : laneA s F j = laneA s' F j) :
    SameLane F j (exec i s) (exec i s') :=
  sameLane_of_completes (completes_of_answerUnary h) (completes_of_answerUnary h') (by rw [hf, ha]) rfl

theorem sameLane_of_answerBinary {sb : Bool} {f f' : Lane F → Lane F → Lane F} (h : exec i s = answerBinary s F sb f)
    (h' : exec i s' = answerBinary s' F sb f') (hf : f = f') (ha : laneA s F j = laneA s' F j)
    (hb : laneB s F sb j = laneB s' F sb j) : SameLane F j (exec i s) (exec i s') :=
  sameLane_of_completes (completes_of_answerBinary h) (completes_of_answerBinary h') (by rw [hf, ha, hb]) rfl

theorem sameLane_of_answerTernary {sb : Bool} {f f' : Lane F → Lane F → Lane F → Lane F}
    (h : exec i s = answerTernary s F sb f) (h' : exec i s' = answerTernary s' F sb f') (hf : f = f')
    (ha : laneA s F j = laneA s' F j) (hb : laneB s F sb j = laneB s' F sb j)
    (hc : laneC s F sb j = laneC s' F sb j) : SameLane F j (exec i s) (exec i s') :=
  sameLane_of_completes (completes_of_answerTernary h) (completes_of_answerTernary h') (by rw [hf, ha, hb, hc]) rfl

/-- The commands of one operand and two results, FOLD and SINCOS (R79). -/
theorem sameLane_of_answer2_map {f f' g g' : Lane F → Lane F}
    (h : exec i s = answer2 s ((opA s F).map f) ((opA s F).map g))
    (h' : exec i s' = answer2 s' ((opA s' F).map f') ((opA s' F).map g')) (hf : f = f') (hg : g = g')
    (ha : laneA s F j = laneA s' F j) : SameLane F j (exec i s) (exec i s') :=
  sameLane_of_completes (completes_of_answer2 h) (completes_of_answer2 h')
    (by simp only [Lanes.map_get, opA_get, hf, ha]) (by simp only [Lanes.map_get, opA_get, hg, ha])

end answers

/-! ### Every command but HADD and BCAST -/

/-- A command that is not cross-lane answers lane `j` from lane `j` of its operands: by its class (R75), and by what its lane
function takes besides the operands, nothing, `CAP`, or `CAP` and the coefficient ROM. -/
theorem exec_sameLane {i : Instr} {s s' : State} {j : Fin 4} (hi : i.crossLane = false) (hm : s.mstu = s'.mstu)
    (ha : laneA s i.format j = laneA s' i.format j)
    (hb : laneB s i.format i.broadcasts j = laneB s' i.format i.broadcasts j)
    (hc : laneC s i.format i.broadcasts j = laneC s' i.format i.broadcasts j) :
    SameLane i.format j (exec i s) (exec i s') := by
  have hcap := cap_eq_of_mstu_eq hm
  have hkrom := krom_eq_of_mstu_eq hm
  cases i with
  | hadd F sb | bcast F idx => cases hi
  | ldconst F idx => exact (sameAnswer_exec_ldconst s s' F idx).sameLane F j
  | ldcoef F idx => exact (sameAnswer_exec_ldcoef (hkrom F) idx).sameLane F j
  | rdcap F => exact (sameAnswer_answer1 s s' (by rw [hcap])).sameLane F j
  | rdstat F => exact (sameAnswer_answer1 s s' (by rw [status_eq_of_mstu_eq hm])).sameLane F j
  | sqr F | sqrt F | abs F | neg F | round F | trunc F | extsign F | mod2pi F =>
    exact sameLane_of_answerUnary rfl rfl rfl ha
  | rcp F apx | rsqrt F apx => exact sameLane_of_answerUnary rfl rfl (by rw [hcap]) ha
  | sin F apx | cos F apx | tan F | tanapprox F | atan F apx =>
    exact sameLane_of_answerUnary rfl rfl (by rw [hcap, hkrom]) ha
  | fold F => exact sameLane_of_answer2_map rfl rfl rfl rfl ha
  | sincos F apx => exact sameLane_of_answer2_map rfl rfl (by rw [hcap, hkrom]) (by rw [hcap, hkrom]) ha
  | add F sb | sub F sb | mul F sb | div F sb | min F sb | max F sb | rem F sb | cmpeq F sb | cmpne F sb | cmplt F sb
  | cmple F sb | cmpgt F sb | cmpge F sb | inbounds F sb | and F sb | or F sb | andnot F sb | xor F sb
  | copysign F sb =>
    exact sameLane_of_answerBinary rfl rfl rfl ha hb
  | atan2 F apx sb => exact sameLane_of_answerBinary rfl rfl (by rw [hcap, hkrom]) ha hb
  | clamp F sb | select F sb => exact sameLane_of_answerTernary rfl rfl rfl ha hb hc

/-- Settles O23, by the class of the command. -/
theorem lanesApart : Obligations.LanesApart := by
  unfold Obligations.LanesApart
  intro i s s' j hi hm ha hb hc
  exact exec_sameLane hi hm ha hb hc

end Sys2Proof.Machine
end

section
/-!
PROOFS of 10_state.md. The clocked machine: what one rising edge does, said once for every depth and latency, and from it
the invariant (R21, R23, R30, R48, R60, R297, R299), `STATUS` at delivery (R24), `CAP` (R22), the held response (R31) and
the order of `Q` (R60). Two facts about the commands carry it: a word decodes exactly when it is legal (R78), and an answer
depends on no more than the command's class reads (R75), so that a command run in the clocked machine answers as the
transaction-level machine of R299 does.
-/

namespace Sys2Proof

/-! ### The fields of a word as numbers (R70) -/

theorem reservedOf_eq_zero_iff (w : Word) : reservedOf w = 0 ↔ w.toNat / 65536 = 0 := by
  have hlt : w.toNat / 65536 < 65536 := by
    have := w.isLt
    omega
  rw [← BitVec.toNat_inj]
  simp [reservedOf, Nat.shiftRight_eq_div_pow, Nat.mod_eq_of_lt hlt]

@[simp] theorem opcodeOf_toNat (w : Word) : (opcodeOf w).toNat = w.toNat % 64 := by
  simp [opcodeOf]

@[simp] theorem fieldsOf_idx_toNat (w : Word) : (fieldsOf w).idx.toNat = w.toNat / 512 % 128 := by
  simp [fieldsOf, Nat.shiftRight_eq_div_pow]

/-! ### What each shape of row accepts (R73 to R76) -/

theorem idx_eq_zero_iff (idx : BitVec 7) : idx = 0 ↔ idx.toNat = 0 := BitVec.toNat_inj.symm

section shapes

variable {f : WordFields} {i : Instr}

@[simp] theorem plain_eq_ok_iff {mk : Fmt → Instr} :
    plain mk f = .ok i ↔ f.apx = false ∧ f.sb = false ∧ f.idx.toNat = 0 ∧ mk f.fmt = i := by
  rw [plain, ← idx_eq_zero_iff]
  split_ifs <;> simp_all

@[simp] theorem plainBinary_eq_ok_iff {mk : Fmt → Bool → Instr} :
    plainBinary mk f = .ok i ↔ f.apx = false ∧ f.idx.toNat = 0 ∧ mk f.fmt f.sb = i := by
  rw [plainBinary, ← idx_eq_zero_iff]
  split_ifs <;> simp_all

@[simp] theorem tieredUnary_eq_ok_iff {mk : Fmt → Bool → Instr} :
    tieredUnary mk f = .ok i ↔ f.sb = false ∧ f.idx.toNat = 0 ∧ mk f.fmt f.apx = i := by
  rw [tieredUnary, ← idx_eq_zero_iff]
  split_ifs <;> simp_all

@[simp] theorem tieredBinary_eq_ok_iff {mk : Fmt → Bool → Bool → Instr} :
    tieredBinary mk f = .ok i ↔ f.idx.toNat = 0 ∧ mk f.fmt f.apx f.sb = i := by
  rw [tieredBinary, ← idx_eq_zero_iff]
  split_ifs <;> simp_all

@[simp] theorem indexed_eq_ok_iff {mk : Fmt → BitVec 7 → Instr} {limit : Nat} :
    indexed mk limit f = .ok i ↔ f.apx = false ∧ f.sb = false ∧ f.idx.toNat ≤ limit ∧ mk f.fmt f.idx = i := by
  rw [indexed]
  split_ifs <;> simp_all

end shapes

/-- The opcode map accepts exactly the fields that R78 calls legal. -/
theorem decodeOpcode_isOk_iff {opc : Nat} (hopc : opc < 64) (f : WordFields) :
    (∃ i, decodeOpcode opc f = .ok i) ↔
      (1 ≤ opc ∧ opc ≤ 0x2C) ∧ (f.apx = true → opc ∈ Machine.apxOpcodes) ∧
        (f.sb = true → opc ∈ Machine.broadcastOpcodes) ∧ f.idx.toNat ≤ Machine.idxLimit opc := by
  interval_cases opc <;>
    simp [decodeOpcode, Machine.apxOpcodes, Machine.broadcastOpcodes, Machine.idxLimit, laneLimit, constLimit, rowLimit]

/-- A word decodes exactly when it is legal (R78). -/
theorem decode_isOk_iff_legal (w : Word) : (∃ i, decode w = .ok i) ↔ Machine.Legal w := by
  have hopc : w.toNat % 64 < 64 := Nat.mod_lt _ (by decide)
  rw [decode, Machine.Legal, ← reservedOf_eq_zero_iff]
  split_ifs with hr
  · rw [opcodeOf_toNat, decodeOpcode_isOk_iff hopc, fieldsOf_idx_toNat]
    exact (and_iff_right hr).symm
  · exact iff_of_false (fun ⟨_, h⟩ => by cases h) fun ⟨h, _⟩ => hr h

/-- The opcode map keeps the limits of R74 on IDX, which only three commands have. -/
theorem wellFormed_of_decodeOpcode {opc : Nat} {f : WordFields} {i : Instr} (h : decodeOpcode opc f = .ok i) :
    i.wellFormed = true := by
  cases i with
  | bcast F idx | ldconst F idx | ldcoef F idx =>
    unfold decodeOpcode at h
    split at h <;> simp [ite_eq_iff] at h
    obtain ⟨-, -, hle, -, rfl⟩ := h
    exact decide_eq_true hle
  | _ => rfl

/-- A word that decodes is a well-formed command (R74). -/
theorem wellFormed_of_decode {w : Word} {i : Instr} (h : decode w = .ok i) : i.wellFormed = true := by
  unfold decode at h
  split at h
  · exact wellFormed_of_decodeOpcode h
  · cases h

end Sys2Proof

namespace Sys2Proof.Machine

/-! ### An answer depends on what the command's class reads (R20, R28, R75, R76) -/

section operands

variable {s s' : State} {F : Fmt} {sb : Bool}

theorem opA_congr (h : ∀ j, laneA s F j = laneA s' F j) : opA s F = opA s' F :=
  Lanes.ext_get fun j => by rw [opA_get, opA_get, h]

theorem opB_congr (h : ∀ j, laneB s F sb j = laneB s' F sb j) : opB s F sb = opB s' F sb :=
  Lanes.ext_get fun j => by rw [opB_get, opB_get, h]

theorem opC_congr (h : ∀ j, laneC s F sb j = laneC s' F sb j) : opC s F sb = opC s' F sb :=
  Lanes.ext_get fun j => by rw [opC_get, opC_get, h]

theorem krom_congr (h32 : s.krom32 = s'.krom32) (h64 : s.krom64 = s'.krom64) (F : Fmt) : s.krom F = s'.krom F := by
  cases F
  · exact h32
  · exact h64

end operands

/-- An IDX that R74 allows on BCAST is the number of a lane. -/
theorem idx_eq_lane {idx : BitVec 7} (h : idx.toNat ≤ 3) : ∃ l : Fin 4, idx = BitVec.ofNat 7 l :=
  ⟨⟨idx.toNat, Nat.lt_succ_of_le h⟩, by simp⟩

/-- BCAST reads the lanes of A and nothing else (R156). -/
theorem sameAnswer_exec_bcast {s s' : State} {F : Fmt} (ha : opA s F = opA s' F) (idx : BitVec 7) :
    SameAnswer (exec (.bcast F idx) s) (exec (.bcast F idx) s') := by
  by_cases h : idx.toNat ≤ 3
  · obtain ⟨l, rfl⟩ := idx_eq_lane h
    rw [exec_bcast, exec_bcast]
    exact sameAnswer_answer1 s s' (by rw [ha])
  · have hlt : 3 < idx.toNat := Nat.lt_of_not_le h
    rw [exec_bcast_illegal s F hlt, exec_bcast_illegal s' F hlt]
    exact sameAnswer_answerIllegal s s'

/-- By the class of the command (R75), and by what its lane function takes besides the operands: nothing, `CAP`, or `CAP` and
the coefficient ROM. -/
theorem exec_sameAnswer {i : Instr} {s s' : State} (hcap : s.cap = s'.cap) (hkrom : ∀ F, s.krom F = s'.krom F)
    (hstatus : (∃ F, i = .rdstat F) → s.status = s'.status)
    (ha : 1 ≤ i.operands → opA s i.format = opA s' i.format)
    (hb : 2 ≤ i.operands → opB s i.format i.broadcasts = opB s' i.format i.broadcasts)
    (hc : 3 ≤ i.operands → opC s i.format i.broadcasts = opC s' i.format i.broadcasts) :
    SameAnswer (exec i s) (exec i s') := by
  cases i with
  | ldconst F idx => exact sameAnswer_exec_ldconst s s' F idx
  | ldcoef F idx => exact sameAnswer_exec_ldcoef (hkrom F) idx
  | rdcap F => exact sameAnswer_answer1 s s' (by rw [hcap])
  | rdstat F => exact sameAnswer_answer1 s s' (by rw [hstatus ⟨F, rfl⟩])
  | bcast F idx => exact sameAnswer_exec_bcast (ha le_rfl) idx
  | sqr F | sqrt F | abs F | neg F | round F | trunc F | extsign F | mod2pi F =>
    exact sameAnswer_answerUnary (ha le_rfl) rfl
  | rcp F apx | rsqrt F apx => exact sameAnswer_answerUnary (ha le_rfl) (by rw [hcap])
  | sin F apx | cos F apx | tan F | tanapprox F | atan F apx =>
    exact sameAnswer_answerUnary (ha le_rfl) (by rw [hcap, hkrom])
  | fold F =>
    have hA : opA s F = opA s' F := ha le_rfl
    exact sameAnswer_answer2 s s' (by rw [hA]) (by rw [hA])
  | sincos F apx =>
    have hA : opA s F = opA s' F := ha le_rfl
    exact sameAnswer_answer2 s s' (by rw [hA, hcap, hkrom]) (by rw [hA, hcap, hkrom])
  | add F sb | sub F sb | mul F sb | div F sb | min F sb | max F sb | rem F sb | cmpeq F sb | cmpne F sb | cmplt F sb
  | cmple F sb | cmpgt F sb | cmpge F sb | inbounds F sb | and F sb | or F sb | andnot F sb | xor F sb
  | copysign F sb =>
    exact sameAnswer_answerBinary (ha one_le_two) (hb le_rfl) rfl
  | hadd F sb => exact sameAnswer_answer1 s s' (congrArg₂ (haddLanes F) (ha one_le_two) (hb le_rfl))
  | atan2 F apx sb => exact sameAnswer_answerBinary (ha one_le_two) (hb le_rfl) (by rw [hcap, hkrom])
  | clamp F sb | select F sb =>
    exact sameAnswer_answerTernary (ha (Nat.le_add_left 1 2)) (hb (Nat.le_succ 2)) (hc le_rfl) rfl

/-- Settles O22, by the class of the command. -/
theorem operandsRead : Obligations.OperandsRead := by
  unfold Obligations.OperandsRead
  intro i s s' hcap h32 h64 hstatus ha hb hc
  exact exec_sameAnswer hcap (krom_congr h32 h64) hstatus (fun h => opA_congr (ha h)) (fun h => opB_congr (hb h))
    (fun h => opC_congr (hc h))

/-! ### A command run in the clocked machine answers as the transaction-level machine does (R299) -/

/-- Every command is answered by one response, of code OK when it is well formed (R74, R260). -/
theorem exec_eq_respond (i : Instr) (s : State) :
    ∃ code r0 r1, exec i s = .next (s.respond code r0 r1) ∧ (i.wellFormed = true → code = codeOk) := by
  cases i with
  | bcast F idx =>
    rw [wellFormed_bcast]
    by_cases h : idx.toNat ≤ 3
    · obtain ⟨l, rfl⟩ := idx_eq_lane h
      exact ⟨_, _, _, exec_bcast s F l, fun _ => rfl⟩
    · exact ⟨_, _, _, exec_bcast_illegal s F (Nat.lt_of_not_le h), fun hw => absurd hw h⟩
  | ldconst F idx =>
    rw [wellFormed_ldconst]
    by_cases h : idx.toNat ≤ 22
    · exact ⟨_, _, _, exec_ldconst s F h, fun _ => rfl⟩
    · exact ⟨_, _, _, exec_ldconst_illegal s F (Nat.lt_of_not_le h), fun hw => absurd hw h⟩
  | ldcoef F idx =>
    rw [wellFormed_ldcoef]
    by_cases h : idx.toNat ≤ 17
    · exact ⟨_, _, _, exec_ldcoef s F h, fun _ => rfl⟩
    · exact ⟨_, _, _, exec_ldcoef_illegal s F (Nat.lt_of_not_le h), fun hw => absurd hw h⟩
  | _ => exact ⟨_, _, _, rfl, fun _ => rfl⟩

/-- `execute` is the answer of `exec` wherever the same command meets the same `CAP`, `STATUS` and ROMs. -/
theorem answer_of_exec {i : Instr} {s t : State} (h : exec i s = .next t) :
    t.answer = execute s.mstu s.command i := by
  obtain ⟨t₁, t₂, h₁, h₂, hcode, h0, h1⟩ : SameAnswer (exec i s) (exec i (loneState s.mstu s.command)) :=
    exec_sameAnswer rfl (krom_congr rfl rfl) (fun _ => rfl) (fun _ => rfl) (fun _ => rfl) fun _ => rfl
  obtain rfl : t = t₁ := Host.Outcome.next.inj (h.symm.trans h₁)
  simp only [execute, h₂, State.answer, hcode, h0, h1]

/-- The code of `execute` on a command that a word decodes to (R260). -/
theorem execute_code {w : Word} {i : Instr} (hw : decode w = .ok i) (m : Mstu) (c : Command) :
    (execute m c i).code = codeOk := by
  obtain ⟨code, r0, r1, h, hcode⟩ := exec_eq_respond i (loneState m c)
  simp only [execute, h]
  exact hcode (wellFormed_of_decode hw)

/-- The answer of a command that a word decodes to is presented with everything else unchanged, and it is the one of R299. -/
theorem runCommand_next {s t : State} (h : runCommand s.command.word s = .next t) :
    SameButResponse s t ∧ t.rspValid = true ∧ t.answer = (transact s.mstu s.command).2 := by
  unfold runCommand at h
  split at h
  · next i hi =>
    obtain ⟨code, r0, r1, he, -⟩ := exec_eq_respond i s
    have ha : t.answer = (transact s.mstu s.command).2 := by rw [answer_of_exec h, transact, hi]
    obtain rfl : s.respond code r0 r1 = t := Host.Outcome.next.inj (he.symm.trans h)
    exact ⟨sameButResponse_respond _ _ _ _, rfl, ha⟩
  · next e he =>
    obtain rfl : respondIllegal s = t := Host.Outcome.next.inj h
    exact ⟨sameButResponse_respond _ _ _ _, rfl, by rw [transact, he]; rfl⟩

/-! ### What one rising edge does -/

/-- The oldest command of `Q` (R60). -/
theorem command_of_q {s : State} {e : Entry} {rest : List Entry} (h : s.q = e :: rest) : s.command = e.cmd := by
  rw [State.command, h]

theorem command_of_due {s : State} {c : Command} (h : dueCommand s = some c) : s.command = c := by
  obtain ⟨-, e, rest, hq, -, rfl⟩ := dueCommand_eq_some h
  exact command_of_q hq

theorem dueCommand_of_rspValid {s : State} (h : s.rspValid = true) : dueCommand s = none := by
  cases hd : dueCommand s with
  | none => rfl
  | some c =>
    obtain ⟨hv, -⟩ := dueCommand_eq_some hd
    rw [h] at hv
    cases hv

/-- What presenting the due command's response does to the state: nothing if none is due, and otherwise the response of R299
is on the outputs and all else is unchanged. -/
theorem presentDue_next {s t : State} (h : presentDue s = .next t) :
    (dueCommand s = none ∧ t = s) ∨
      (dueCommand s = some s.command ∧ SameButResponse s t ∧ t.rspValid = true ∧
        t.answer = (transact s.mstu s.command).2) := by
  unfold presentDue at h
  split at h
  · next c hc =>
    obtain rfl := command_of_due hc
    exact .inr ⟨hc, runCommand_next h⟩
  · next hc => exact .inl ⟨hc, (Host.Outcome.next.inj h).symm⟩

theorem SameButResponse.refl (s : State) : SameButResponse s s := ⟨rfl, rfl, rfl, rfl, rfl, rfl, rfl, rfl⟩

theorem SameButResponse.mstu_eq {s t : State} (h : SameButResponse s t) : t.mstu = s.mstu := by
  simp only [State.mstu, h.cap, h.status, h.krom32, h.krom64]

section edge

variable {depth : Nat} {lat : BitVec 3 → Word → Nat} {s t : State}

/-- A reset edge is `resetEdge` (R290). -/
theorem edge_reset (h : edge depth lat s = .next t) (hr : s.pins.rstN = false) :
    t = resetEdge s.pins (popInputs s) := by
  obtain ⟨-, ht⟩ | ⟨hr', -⟩ := edge_cases h
  · exact Host.Outcome.next.inj ht
  · rw [hr] at hr'
    cases hr'

/-- An edge with no reset is the handshakes and then the due command. -/
theorem edge_noReset (h : edge depth lat s = .next t) (hr : s.pins.rstN = true) :
    presentDue (handshake depth lat s.pins (popInputs s)) = .next t := by
  obtain ⟨hr', -⟩ | ⟨-, ht⟩ := edge_cases h
  · rw [hr] at hr'
    cases hr'
  · exact ht

/-- Presenting a response changes nothing but the response outputs, so the rest is as the handshakes leave it. -/
theorem edge_sameButResponse (h : edge depth lat s = .next t) (hr : s.pins.rstN = true) :
    SameButResponse (handshake depth lat s.pins (popInputs s)) t := by
  obtain ⟨-, rfl⟩ | ⟨-, hs, -⟩ := presentDue_next (edge_noReset h hr)
  · exact .refl _
  · exact hs

theorem edge_cap (h : edge depth lat s = .next t) (hr : s.pins.rstN = true) : t.cap = s.cap := by
  simpa using (edge_sameButResponse h hr).cap

theorem edge_krom32 (h : edge depth lat s = .next t) (hr : s.pins.rstN = true) : t.krom32 = s.krom32 := by
  simpa using (edge_sameButResponse h hr).krom32

theorem edge_krom64 (h : edge depth lat s = .next t) (hr : s.pins.rstN = true) : t.krom64 = s.krom64 := by
  simpa using (edge_sameButResponse h hr).krom64

theorem edge_status (h : edge depth lat s = .next t) (hr : s.pins.rstN = true) :
    t.status = if responseTaken s.pins s then statusAfter s.rspCode s.status else s.status := by
  simpa using (edge_sameButResponse h hr).status

theorem edge_q (h : edge depth lat s = .next t) (hr : s.pins.rstN = true) :
    t.q =
      ((if responseTaken s.pins s then s.q.tail else s.q).map fun e => { e with wait := e.wait - 1 }) ++
        if commandAccepted s.pins s then [{ cmd := commandOfPins s.pins, wait := lat s.cap s.pins.cmdWord - 1 }]
        else [] := by
  simpa using (edge_sameButResponse h hr).q

/-- `cmd_ready` for the next edge (R297). -/
theorem edge_cmdReady (h : edge depth lat s = .next t) (hr : s.pins.rstN = true) :
    t.cmdReady = decide (t.q.length < depth) := by
  have hs := edge_sameButResponse h hr
  rw [hs.cmdReady, hs.q, handshake_cmdReady]

/-- A response presented after an edge was held over it, or it is the one of R299 to the oldest command of `Q`. -/
theorem edge_presented (h : edge depth lat s = .next t) (hr : s.pins.rstN = true) (hv : t.rspValid = true) :
    (s.rspValid = true ∧ s.pins.rspReady = false) ∨
      ∃ e rest, t.q = e :: rest ∧ t.answer = (transact t.mstu e.cmd).2 := by
  obtain ⟨-, rfl⟩ | ⟨hd, hs, -, ha⟩ := presentDue_next (edge_noReset h hr)
  · left
    simpa using hv
  · right
    obtain ⟨-, e, rest, hq, -, hc⟩ := dueCommand_eq_some hd
    exact ⟨e, rest, hs.q.trans hq, by rw [ha, hs.mstu_eq, hc]⟩

/-! A response that is presented and not taken is held (R31). -/

section held

variable (h : edge depth lat s = .next t) (hr : s.pins.rstN = true) (hn : s.pins.rspReady = false)

include h hr hn

theorem edge_held_status : t.status = s.status := by
  rw [edge_status h hr]
  simp [responseTaken, hn]

theorem edge_held_mstu : t.mstu = s.mstu := by
  simp only [State.mstu, edge_cap h hr, edge_held_status h hr hn, edge_krom32 h hr, edge_krom64 h hr]

theorem edge_held_head {e : Entry} {rest : List Entry} (hq : s.q = e :: rest) :
    ∃ e' rest', t.q = e' :: rest' ∧ e'.cmd = e.cmd := by
  rw [edge_q h hr, hq]
  simp [responseTaken, hn]

variable (hv : s.rspValid = true)

include hv

/-- While a response is presented no command is due, so the edge is the handshakes. -/
theorem edge_held : t = handshake depth lat s.pins (popInputs s) := by
  have hd : dueCommand (handshake depth lat s.pins (popInputs s)) = none :=
    dueCommand_of_rspValid (by simp [hv, hn])
  obtain ⟨-, ht⟩ | ⟨hc, -⟩ := presentDue_next (edge_noReset h hr)
  · exact ht
  · rw [hd] at hc
    cases hc

theorem edge_held_rspValid : t.rspValid = true := by
  rw [edge_held h hr hn hv]
  simp [hv, hn]

theorem edge_held_answer : t.answer = s.answer := by
  rw [edge_held h hr hn hv]
  exact handshake_held depth lat s.pins (popInputs s) hv hn

end held

end edge

/-- Settles O14. -/
theorem responseHeld : Obligations.ResponseHeld := by
  unfold Obligations.ResponseHeld
  intro s t hr hv hn h
  refine ⟨edge_held_rspValid h hr hn hv, edge_held_answer h hr hn hv, edge_held_status h hr hn, ?_⟩
  intro e rest hq
  obtain ⟨e', rest', hq', hcmd⟩ := edge_held_head h hr hn hq
  rw [command_of_q hq', hcmd]

/-- Settles O15: ageing changes the waits of `Q` and none of its commands. -/
theorem queueInOrder : Obligations.QueueInOrder := by
  unfold Obligations.QueueInOrder
  intro s t hr h
  have hage : (Entry.cmd ∘ fun e : Entry => { e with wait := e.wait - 1 }) = Entry.cmd := rfl
  rw [edge_q h hr, List.map_append, List.map_map, hage, responseTaken, commandAccepted]
  congr 1
  split <;> rfl

/-! ### `CAP` (R21, R22) -/

theorem sanitise_legal (v : BitVec 3) :
    sanitise v = 0b000#3 ∨ sanitise v = 0b001#3 ∨ sanitise v = 0b011#3 ∨ sanitise v = 0b111#3 := by
  revert v
  decide

/-- The three equations of R22. -/
theorem sanitise_bits (v : BitVec 3) :
    (sanitise v).getLsbD 0 = v.getLsbD 0 ∧ (sanitise v).getLsbD 1 = (v.getLsbD 1 && v.getLsbD 0) ∧
      (sanitise v).getLsbD 2 = (v.getLsbD 2 && v.getLsbD 1 && v.getLsbD 0) := by
  revert v
  decide

/-- Settles O11. -/
theorem capSanitised : Obligations.CapSanitised := by
  unfold Obligations.CapSanitised
  refine ⟨fun s t hr h => ?_, fun s t hr h => edge_cap h hr, by decide⟩
  have hcap : t.cap = sanitise s.pins.capIn := by rw [edge_reset h hr, resetEdge_cap]
  obtain ⟨h0, h1, h2⟩ := sanitise_bits s.pins.capIn
  rw [CapLegal, hcap]
  exact ⟨h0, h1, h2, sanitise_legal _⟩

/-! ### `STATUS` (R23, R24) -/

section status

variable (code : BitVec 2) (status : BitVec 32)

theorem statusAfter_codeOk : statusAfter codeOk status = status := rfl

theorem statusAfter_codeIllegal : statusAfter codeIllegal status = status ||| 1#32 := rfl

/-- Bits 31:1 are no delivery's to change (R23). -/
theorem statusAfter_reserved : (statusAfter code status).extractLsb' 1 31 = status.extractLsb' 1 31 := by
  unfold statusAfter
  split
  · rw [BitVec.extractLsb'_or, show (1#32).extractLsb' 1 31 = 0#31 by decide, BitVec.or_zero]
  · rfl

/-- A delivery never clears ILL (R24). -/
theorem statusAfter_ill (h : status.getLsbD 0 = true) : (statusAfter code status).getLsbD 0 = true := by
  unfold statusAfter
  split
  · rw [BitVec.getLsbD_or, h, Bool.true_or]
  · exact h

end status

theorem transact_code_of_legal {c : Command} (h : Legal c.word) (m : Mstu) : (transact m c).2.code = codeOk := by
  obtain ⟨i, hi⟩ := (decode_isOk_iff_legal c.word).mpr h
  rw [transact, hi]
  exact execute_code hi m c

theorem transact_code_of_illegal {c : Command} (h : ¬ Legal c.word) (m : Mstu) :
    (transact m c).2.code = codeIllegal := by
  rw [transact]
  split
  · rfl
  · next i hi => exact absurd ((decode_isOk_iff_legal c.word).mp ⟨i, hi⟩) h

/-- The code of a presented response is that of the oldest command of `Q`. -/
theorem PresentedRight.rspCode {s : State} (hp : PresentedRight s) (hv : s.rspValid = true) {e : Entry}
    {rest : List Entry} (hq : s.q = e :: rest) : s.rspCode = (transact s.mstu e.cmd).2.code := by
  obtain ⟨e', rest', hq', ha⟩ := hp hv
  obtain ⟨rfl, -⟩ := List.cons.inj (hq.symm.trans hq')
  exact congrArg Answer.code ha

theorem presentDue_of_due {s : State} {c : Command} {i : Instr} (hd : dueCommand s = some c)
    (hi : decode c.word = .ok i) : presentDue s = exec i s := by
  simp only [presentDue, hd, runCommand, hi]

/-- An RDSTAT that is due reads `STATUS` as the edge leaves it (R253). -/
theorem presentDue_rdstat {s t : State} {c : Command} {F : Fmt} (hd : dueCommand s = some c)
    (hi : decode c.word = .ok (.rdstat F)) (h : presentDue s = .next t) :
    busLane F t.res0 0 = t.status.setWidth F.width := by
  rw [presentDue_of_due hd hi] at h
  obtain ⟨t', ht', hs, -, -, hr0, -⟩ := completes_of_answer1 (exec_rdstat s F)
  obtain rfl : t' = t := Host.Outcome.next.inj (ht'.symm.trans h)
  rw [hs.status]
  exact hr0 0

/-- Settles O9: the presented response is the one of R299 to the command delivered, so its code is ILLEGAL exactly when that
command is illegal. -/
theorem statusAtDelivery : Obligations.StatusAtDelivery := by
  unfold Obligations.StatusAtDelivery
  intro s t hinv h
  refine ⟨fun hr => ?_, fun hr hn => ?_, fun hr htaken e rest hq => ?_, fun hr hill => ?_, fun c F hr hd hi => ?_⟩
  · rw [edge_reset h hr, resetEdge_status]
  · rw [edge_status h hr, responseTaken, hn]
    rfl
  · have hcode := hinv.presentedRight.rspCode (Bool.and_elim_left htaken) hq
    rw [edge_status h hr, responseTaken, if_pos htaken, hcode]
    constructor
    · intro hl
      rw [transact_code_of_legal hl, statusAfter_codeOk]
    · intro hl
      rw [transact_code_of_illegal hl, statusAfter_codeIllegal]
  · rw [edge_status h hr]
    split
    · exact statusAfter_ill _ _ hill
    · exact hill
  · exact presentDue_rdstat hd hi (edge_noReset h hr)

/-! ### The invariant of the clocked machine -/

theorem zero_statusReserved {s : State} (h : s.status = 0) : StatusReserved s := by
  rw [StatusReserved, h]
  decide

/-- The invariant of a machine with `Q` empty and `cmd_ready` and `rsp_valid` 0, as reset leaves it (R290). -/
theorem inv_of_empty {depth : Nat} {s : State} (hcap : CapLegal s) (hstatus : s.status = 0) (hroms : RomsWf s)
    (hq : s.q = []) (hready : s.cmdReady = false) (hv : s.rspValid = false) : Inv depth s where
  capLegal := hcap
  statusReserved := zero_statusReserved hstatus
  romsWf := hroms
  queueFits := ⟨by rw [hq]; exact Nat.zero_le _, fun h => by rw [hready] at h; cases h⟩
  presentedRight := fun h => by rw [hv] at h; cases h

theorem inv_resetWith (depth : Nat) (capIn : BitVec 3) {k32 : CoefRom .f32} {k64 : CoefRom .f64}
    (h32 : coefRomWf k32 = true) (h64 : coefRomWf k64 = true) : Inv depth (State.resetWith capIn k32 k64) :=
  inv_of_empty (sanitise_legal capIn) rfl ⟨h32, h64⟩ rfl rfl rfl

/-- Settles O18. -/
theorem invariantAtReset : Obligations.InvariantAtReset := by
  unfold Obligations.InvariantAtReset
  exact ⟨fun capIn _ _ h32 h64 => inv_resetWith _ capIn h32 h64,
    inv_resetWith _ Config.capIn coefRomWf_refRom32 coefRomWf_refRom64⟩

section invariant

variable {depth : Nat} {lat : BitVec 3 → Word → Nat} {s t : State}

theorem inv_resetEdge (hroms : RomsWf s) (p : Pins) : Inv depth (resetEdge p s) := by
  refine inv_of_empty ?_ (resetEdge_status s p) ?_ (resetEdge_q s p) (resetEdge_cmdReady s p) (resetEdge_rspValid s p)
  · rw [CapLegal, resetEdge_cap]
    exact sanitise_legal _
  · rw [RomsWf, resetEdge_krom32, resetEdge_krom64]
    exact hroms

theorem edge_keeps_statusReserved (h : edge depth lat s = .next t) (hr : s.pins.rstN = true) (hs : StatusReserved s) :
    StatusReserved t := by
  rw [StatusReserved, edge_status h hr]
  split
  · rw [statusAfter_reserved]
    exact hs
  · exact hs

/-- An edge adds at most the accepted command to `Q`, and accepts one only while `cmd_ready` is 1 (R296). -/
theorem edge_q_length_le (h : edge depth lat s = .next t) (hr : s.pins.rstN = true) :
    t.q.length ≤ s.q.length + if s.cmdReady then 1 else 0 := by
  rw [edge_q h hr, List.length_append, List.length_map]
  refine Nat.add_le_add ?_ ?_
  · split
    · simp
    · exact le_rfl
  · cases hc : s.cmdReady
    · simp [commandAccepted, hc]
    · split <;> simp

theorem edge_keeps_queueFits (h : edge depth lat s = .next t) (hr : s.pins.rstN = true) (hq : QueueFits depth s) :
    QueueFits depth t := by
  obtain ⟨hfits, hroom⟩ := hq
  have hlen := edge_q_length_le h hr
  refine ⟨?_, fun hready => ?_⟩
  · cases hc : s.cmdReady
    · simp only [hc] at hlen
      exact hlen.trans hfits
    · simp only [hc, if_true] at hlen
      exact hlen.trans (hroom hc)
  · rw [edge_cmdReady h hr] at hready
    exact of_decide_eq_true hready

/-- A held response stays the one of its command, since neither the command nor what R299 keeps has changed; a new one is
right when it is presented. -/
theorem edge_keeps_presentedRight (h : edge depth lat s = .next t) (hr : s.pins.rstN = true) (hp : PresentedRight s) :
    PresentedRight t := by
  intro hv
  obtain ⟨hv', hn⟩ | hnew := edge_presented h hr hv
  · obtain ⟨e, rest, hq, ha⟩ := hp hv'
    obtain ⟨e', rest', hq', hcmd⟩ := edge_held_head h hr hn hq
    refine ⟨e', rest', hq', ?_⟩
    rw [edge_held_answer h hr hn hv', edge_held_mstu h hr hn, hcmd, ha]
  · exact hnew

/-- Every edge keeps the invariant, for every depth and latency. -/
theorem edge_keeps_inv (hi : Inv depth s) (h : edge depth lat s = .next t) : Inv depth t := by
  cases hr : s.pins.rstN with
  | false =>
    rw [edge_reset h hr]
    exact inv_resetEdge (s := popInputs s) hi.romsWf s.pins
  | true =>
    exact {
      capLegal := by
        rw [CapLegal, edge_cap h hr]
        exact hi.capLegal
      statusReserved := edge_keeps_statusReserved h hr hi.statusReserved
      romsWf := by
        rw [RomsWf, edge_krom32 h hr, edge_krom64 h hr]
        exact hi.romsWf
      queueFits := edge_keeps_queueFits h hr hi.queueFits
      presentedRight := edge_keeps_presentedRight h hr hi.presentedRight }

end invariant

/-- Settles O19: a step is an edge. -/
theorem invariantKept : Obligations.InvariantKept := by
  unfold Obligations.InvariantKept
  exact fun s t hi h => edge_keeps_inv hi h

end Sys2Proof.Machine
end

section
/-!
PROOFS of 20_memory.md. A run of the clocked machine is the fold of R299 over the commands it answers, and a step runs
the command that the oldest word of `Q` decodes to (R60).
-/

namespace Sys2Proof.Machine

/-! ### The fold of R299 -/

@[simp] theorem transactAll_nil (m : Mstu) : transactAll m [] = (m, []) := rfl

theorem transactAll_singleton (m : Mstu) (c : Command) :
    transactAll m [c] = ((transact m c).1, [(transact m c).2]) := rfl

/-- The fold over two sequences goes on from where the first ends. -/
theorem transactAll_append (m : Mstu) (cs ds : List Command) :
    transactAll m (cs ++ ds) =
      ((transactAll (transactAll m cs).1 ds).1, (transactAll m cs).2 ++ (transactAll (transactAll m cs).1 ds).2) := by
  induction cs generalizing m with
  | nil => rfl
  | cons c cs ih => simp only [List.cons_append, transactAll, ih]

/-- One response for each command. -/
@[simp] theorem transactAll_length (m : Mstu) (cs : List Command) : (transactAll m cs).2.length = cs.length := by
  induction cs generalizing m with
  | nil => rfl
  | cons c cs ih => simp only [transactAll, List.length_cons, ih]

/-- Delivering the response that R299 gives a command leaves `STATUS` as R299 says (R24). -/
theorem transact_fst (m : Mstu) (c : Command) :
    (transact m c).1 = { m with status := statusAfter (transact m c).2.code m.status } := by
  by_cases hl : Legal c.word
  · rw [transact_code_of_legal hl, statusAfter_codeOk]
    obtain ⟨i, hi⟩ := (decode_isOk_iff_legal c.word).mpr hl
    rw [transact, hi]
  · rw [transact_code_of_illegal hl, statusAfter_codeIllegal]
    unfold transact
    split
    · rfl
    · next i hi => exact absurd ((decode_isOk_iff_legal c.word).mp ⟨i, hi⟩) hl

/-! ### Edges and runs of edges -/

section run

variable {depth : Nat} {lat : BitVec 3 → Word → Nat} {n : Nat} {s t u : State}

theorem exists_presentDue_next (s : State) : ∃ t, presentDue s = .next t := by
  obtain ⟨-, h⟩ | ⟨c, e, -, -, h⟩ | ⟨c, i, -, -, h⟩ := presentDue_cases (rfl : presentDue s = _)
  · exact ⟨_, h⟩
  · exact ⟨_, h⟩
  · obtain ⟨code, r0, r1, he, -⟩ := exec_eq_respond i s
    exact ⟨_, h.trans he⟩

/-- Every edge gives a next state (R260). -/
theorem exists_edge_next (depth : Nat) (lat : BitVec 3 → Word → Nat) (s : State) : ∃ t, edge depth lat s = .next t := by
  obtain ⟨-, h⟩ | ⟨-, h⟩ := edge_cases (rfl : edge depth lat s = _)
  · exact ⟨_, h⟩
  · obtain ⟨t, ht⟩ := exists_presentDue_next (handshake depth lat s.pins (popInputs s))
    exact ⟨t, h.symm.trans ht⟩

theorem runEdges_succ (h : edge depth lat s = .next t) :
    runEdges depth lat (n + 1) s =
      (acceptedNow s ++ (runEdges depth lat n t).1, deliveredNow s ++ (runEdges depth lat n t).2.1,
        (runEdges depth lat n t).2.2) := by
  rw [runEdges, h]

theorem NoReset.rstN (h : NoReset (n + 1) s) : s.pins.rstN = true := by
  unfold State.pins
  cases hi : s.inputs with
  | nil => rfl
  | cons p ps => exact h p (by simp [hi])

theorem NoReset.edge (h : NoReset (n + 1) s) (he : edge depth lat s = .next t) : NoReset n t := by
  have hin : t.inputs = s.inputs.tail := by simpa using (edge_sameButResponse he h.rstN).inputs
  intro p hp
  apply h p
  rw [hin] at hp
  cases hi : s.inputs with
  | nil => simp [hi] at hp
  | cons q qs => exact List.mem_cons_of_mem q (by simpa [hi] using hp)

/-- From `s` to `t` the machine has answered the commands `done`, the oldest of those it held and accepted: their
responses are the ones delivered, `CAP`, `STATUS` and the ROMs are as the fold of R299 leaves them, and `Q` holds the rest. -/
def Answers (s t : State) (accepted : List Command) (delivered : List Answer) : Prop :=
  ∃ done, s.q.map Entry.cmd ++ accepted = done ++ t.q.map Entry.cmd ∧ transactAll s.mstu done = (t.mstu, delivered)

theorem Answers.refl (s : State) : Answers s s [] [] := ⟨[], by simp, rfl⟩

theorem Answers.trans {as bs : List Command} {ds es : List Answer} (h₁ : Answers s t as ds) (h₂ : Answers t u bs es) :
    Answers s u (as ++ bs) (ds ++ es) := by
  obtain ⟨done₁, hq₁, hf₁⟩ := h₁
  obtain ⟨done₂, hq₂, hf₂⟩ := h₂
  refine ⟨done₁ ++ done₂, ?_, ?_⟩
  · rw [← List.append_assoc, hq₁, List.append_assoc, hq₂, List.append_assoc]
  · rw [transactAll_append, hf₁, hf₂]

theorem edge_mstu (h : edge depth lat s = .next t) (hr : s.pins.rstN = true) :
    t.mstu =
      { s.mstu with status := if responseTaken s.pins s then statusAfter s.rspCode s.status else s.status } := by
  simp only [State.mstu, edge_cap h hr, edge_status h hr, edge_krom32 h hr, edge_krom64 h hr]

/-- The commands in `Q` after an edge, the one delivered gone and the one accepted at the end (R60). -/
theorem edge_commands (h : edge depth lat s = .next t) (hr : s.pins.rstN = true) :
    t.q.map Entry.cmd = (if responseTaken s.pins s then s.q.tail else s.q).map Entry.cmd ++ acceptedNow s := by
  have hage : (Entry.cmd ∘ fun e : Entry => { e with wait := e.wait - 1 }) = Entry.cmd := rfl
  rw [edge_q h hr, List.map_append, List.map_map, hage, acceptedNow, hr, Bool.true_and]
  congr 1
  split <;> rfl

/-- An edge with no reset answers the oldest command of `Q` if its response is taken, and no command otherwise. -/
theorem edge_answers (hp : PresentedRight s) (h : edge depth lat s = .next t) (hr : s.pins.rstN = true) :
    Answers s t (acceptedNow s) (deliveredNow s) := by
  have hm := edge_mstu h hr
  have hc := edge_commands h hr
  rw [deliveredNow, hr, Bool.true_and]
  cases ht : responseTaken s.pins s with
  | false =>
    rw [ht] at hm hc
    exact ⟨[], hc.symm, by rw [hm]; rfl⟩
  | true =>
    rw [ht] at hm hc
    obtain ⟨e, rest, hq, ha⟩ := hp (Bool.and_elim_left ht)
    refine ⟨[e.cmd], ?_, ?_⟩
    · rw [hc, hq]
      rfl
    · rw [transactAll_singleton, transact_fst, ← ha, hm]
      rfl

/-- Any number of edges with no reset answer the oldest commands, as many as responses are delivered. -/
theorem run_answers (hi : Inv depth s) (hn : NoReset n s) :
    Answers s (runEdges depth lat n s).2.2 (runEdges depth lat n s).1 (runEdges depth lat n s).2.1 := by
  induction n generalizing s with
  | zero => exact .refl s
  | succ n ih =>
    obtain ⟨t, ht⟩ := exists_edge_next depth lat s
    rw [runEdges_succ ht]
    exact (edge_answers hi.presentedRight ht hn.rstN).trans (ih (edge_keeps_inv hi ht) (hn.edge ht))

end run

/-- Settles O20, by induction on the number of edges: each edge answers the commands whose responses it delivers. -/
theorem runIsFold : Obligations.RunIsFold := by
  unfold Obligations.RunIsFold
  intro depth lat n s hi hn
  obtain ⟨done, hq, hf⟩ := run_answers (lat := lat) hi hn
  have hdel : (runEdges depth lat n s).2.1 = (transactAll s.mstu done).2 := by rw [hf]
  have hlen : (runEdges depth lat n s).2.1.length = done.length := by rw [hdel, transactAll_length]
  simp only [hq, hlen, List.take_left, List.drop_left, List.length_append, hf]
  exact ⟨Nat.le_add_right _ _, trivial, trivial, trivial⟩

/-! ### The command that a step runs (R60, R298, R299) -/

theorem step_of_due {s : State} {c : Command} {i : Instr} (hr : s.pins.rstN = true)
    (hd : dueCommand (handshake Config.depth latencyOf s.pins (popInputs s)) = some c) (hi : decode c.word = .ok i) :
    step s = exec i (handshake Config.depth latencyOf s.pins (popInputs s)) := by
  obtain ⟨hr', -⟩ | ⟨-, h⟩ := edge_cases (rfl : step s = _)
  · rw [hr] at hr'
    cases hr'
  · rw [← h, presentDue_of_due hd hi]

theorem placeCommand_rstN (w : Word) (s : State) : (placeCommand w s).pins.rstN = true := by
  cases h : s.inputs with
  | nil => simp only [State.pins, placeCommand, h]; rfl
  | cons p ps => simp only [State.pins, placeCommand, h]; rfl

/-- The oldest command of `Q` is due when its wait is over and no response is presented (R298). -/
theorem dueCommand_of_q {s : State} {e : Entry} {rest : List Entry} (hv : s.rspValid = false) (hq : s.q = e :: rest)
    (hw : e.wait = 0) : dueCommand s = some e.cmd := by
  simp [dueCommand, hq, hv, hw]

/-- With no response presented, the oldest command stays the oldest over the handshakes, and due if its wait is over. -/
theorem handshake_due {depth : Nat} {lat : BitVec 3 → Word → Nat} {p : Pins} {s : State} {e : Entry}
    {rest : List Entry} (hv : s.rspValid = false) (hq : s.q = e :: rest) (hw : e.wait = 0) :
    dueCommand (handshake depth lat p s) = some e.cmd := by
  have hv' : (handshake depth lat p s).rspValid = false := by simp [hv]
  obtain ⟨rest', hq'⟩ : ∃ rest', (handshake depth lat p s).q = { e with wait := 0 } :: rest' := by
    simp [responseTaken, hv, hq, hw]
  exact dueCommand_of_q (e := { e with wait := 0 }) hv' hq' rfl

theorem handshake_mstu {depth : Nat} {lat : BitVec 3 → Word → Nat} {p : Pins} {s : State} (hv : s.rspValid = false) :
    (handshake depth lat p s).mstu = s.mstu := by
  simp [State.mstu, responseTaken, hv]

/-- Settles O6: the due command is the oldest of `Q`, and a placed one is due at once. -/
theorem stepRunsDecoded : Obligations.StepRunsDecoded := by
  unfold Obligations.StepRunsDecoded
  refine ⟨fun s c i hr hd hi => ⟨command_of_due hd, step_of_due hr hd hi⟩, fun s w i hw hi => ?_⟩
  have hplace : s.withFetchWord 32 w = placeCommand (BitVec.ofNat 32 w) s := by
    rw [State.withFetchWord, Nat.mod_eq_of_lt hw]
  rw [hplace]
  have hd := handshake_due (depth := Config.depth) (lat := latencyOf)
    (p := (placeCommand (BitVec.ofNat 32 w) s).pins) (s := popInputs (placeCommand (BitVec.ofNat 32 w) s)) rfl rfl rfl
  exact ⟨_, step_of_due (placeCommand_rstN _ s) hd hi, command_of_due hd, handshake_mstu rfl⟩

end Sys2Proof.Machine
end

section
/-!
PROOFS of 20_memory.md, the two read-only memories and the buses. A ROM read completes with the entry or the row at its
index (R44, R49, R250, R251), and an F64 lane of a bus is two F32 lanes (R56).
-/

namespace Sys2Proof.Machine

/-! ### The constant ROM (R41, R44, R250) -/

/-- A vector of zeros but for one lane: the Mask and Unit entries of R44. -/
def Lanes.single {F : Fmt} (l : Fin 4) (x : Lane F) : Lanes F :=
  match l with
  | 0 => ⟨x, 0, 0, 0⟩
  | 1 => ⟨0, x, 0, 0⟩
  | 2 => ⟨0, 0, x, 0⟩
  | 3 => ⟨0, 0, 0, x⟩

theorem Lanes.single_get {F : Fmt} (l : Fin 4) (x : Lane F) (j : Fin 4) :
    (Lanes.single l x).get j = if j = l then x else 0 := by
  match l, j with
  | 0, 0 | 0, 1 | 0, 2 | 0, 3 | 1, 0 | 1, 1 | 1, 2 | 1, 3 | 2, 0 | 2, 1 | 2, 2 | 2, 3 | 3, 0 | 3, 1 | 3, 2 | 3, 3 => rfl

theorem pattern_eq (F : Fmt) (p32 p64 : Nat) :
    pattern F p32 p64 = BitVec.ofNat F.width (if F = .f32 then p32 else p64) := by
  cases F <;> rfl

section ldconst

variable {F : Fmt} (s : State) {n p32 p64 : Nat}

theorem completes_ldconst (hn : n ≤ 22) :
    Completes (.ldconst F (BitVec.ofNat 7 n)) s F (constEntry F n).get (noResult F) := by
  have hidx : (BitVec.ofNat 7 n).toNat = n := by
    rw [BitVec.toNat_ofNat, Nat.mod_eq_of_lt (Nat.lt_of_le_of_lt hn (by decide))]
  have h := exec_ldconst s F (idx := BitVec.ofNat 7 n) (by rwa [hidx])
  rw [hidx] at h
  exact completes_of_answer1 h

/-- An entry with one pattern in every lane. -/
theorem completes_ldconst_all (hn : n ≤ 22) (h : constEntry F n = Lanes.all (pattern F p32 p64)) :
    Completes (.ldconst F (BitVec.ofNat 7 n)) s F
      (fun _ => BitVec.ofNat F.width (if F = .f32 then p32 else p64)) (noResult F) :=
  (completes_ldconst s hn).congr (fun j => by rw [h, Lanes.all_get, pattern_eq]) fun _ => rfl

/-- An entry with a pattern in one lane and zeros in the others. -/
theorem completes_ldconst_single {l : Fin 4} (hn : n ≤ 22)
    (h : constEntry F n = Lanes.single l (pattern F p32 p64)) :
    Completes (.ldconst F (BitVec.ofNat 7 n)) s F
      (fun j => if j = l then BitVec.ofNat F.width (if F = .f32 then p32 else p64) else 0) (noResult F) :=
  (completes_ldconst s hn).congr (fun j => by rw [h, Lanes.single_get, pattern_eq]) fun _ => rfl

end ldconst

/-- Settles O39: the entries in the order of R44, then the indices that no word has. -/
theorem constantRomResult : Obligations.ConstantRomResult := by
  unfold Obligations.ConstantRomResult
  intro F s
  have every {n p32 p64 : Nat} := @completes_ldconst_all F s n p32 p64
  have single {n p32 p64 : Nat} {l : Fin 4} := @completes_ldconst_single F s n p32 p64 l
  exact ⟨every (by decide) rfl, every (by decide) rfl, every (by decide) rfl, every (by decide) rfl,
    every (by decide) rfl, every (by decide) rfl, every (by decide) rfl, every (by decide) rfl, every (by decide) rfl,
    every (by decide) rfl, every (by decide) rfl, every (by decide) rfl, every (by decide) rfl,
    single (by decide) rfl, single (by decide) rfl, single (by decide) rfl, single (by decide) rfl,
    single (by decide) rfl, single (by decide) rfl, single (by decide) rfl, single (by decide) rfl,
    every (by decide) rfl, every (by decide) rfl,
    fun _ h => by rw [exec_ldconst_illegal s F h]; exact answeredIllegal_answerIllegal s⟩

/-! ### The coefficient ROM (R45 to R50, R251) -/

section ldcoef

variable {F : Fmt} {r : CoefRom F}

theorem tableWf_of_coefRomWf (h : coefRomWf r = true) (t : TableId) : tableWf r t = true := by
  simp only [coefRomWf, Bool.and_eq_true] at h
  cases t <;> simp only [h]

/-- A well-formed table has the number of coefficients that R47 gives it. -/
theorem coefs_length (h : coefRomWf r = true) (t : TableId) : (tableOf r t).coefs.length = termCount t := by
  have ht := tableWf_of_coefRomWf h t
  simp only [tableWf, Bool.and_eq_true, beq_iff_eq] at ht
  exact ht.1

theorem tableOfNumber_tableNumber (r : CoefRom F) (t : TableId) :
    tableOfNumber r (tableNumber t) = some (tableOf r t) := by
  cases t <;> rfl

theorem tableNumber_le (t : TableId) : tableNumber t ≤ 8 := by cases t <;> decide

/-- A lane of a row is +0 where the table is absent or has no such coefficient (R49). -/
theorem tableLane_tableOf (h : coefRomWf r = true) (t : TableId) (k : Nat) :
    tableLane (tableOf r t) k = if tablePresent r t = true ∧ k < termCount t then coef r t k else 0 := by
  by_cases hp : tablePresent r t = true
  · have hlane : tableLane (tableOf r t) k = coef r t k := if_pos hp
    by_cases hk : k < termCount t
    · rw [if_pos ⟨hp, hk⟩, hlane]
    · have hlen : (tableOf r t).coefs.length ≤ k := by
        rw [coefs_length h]
        exact Nat.le_of_not_lt hk
      rw [if_neg fun hc => hk hc.2, hlane, coef, List.getElem?_eq_none hlen]
      rfl
  · rw [if_neg fun hc => hp hc.1]
    exact if_neg hp

/-- Row 2t + h holds the coefficients 4h to 4h + 3 of table t (R49). -/
theorem coefRow_get (r : CoefRom F) (t : TableId) (half : Fin 2) (j : Fin 4) :
    (coefRow r (2 * tableNumber t + half)).get j = tableLane (tableOf r t) (4 * half + j) := by
  have hdiv : (2 * tableNumber t + half.val) / 2 = tableNumber t := by omega
  have hmod : (2 * tableNumber t + half.val) % 2 = half.val := by omega
  simp only [coefRow, hdiv, hmod, tableOfNumber_tableNumber]
  match j with
  | 0 | 1 | 2 | 3 => rfl

end ldcoef

/-- Settles O40: the row of the table, lane by lane, then the indices that no word has. -/
theorem coefficientRomResult : Obligations.CoefficientRomResult := by
  unfold Obligations.CoefficientRomResult
  intro F s hwf
  refine ⟨fun t half => ?_, fun idx h => ?_⟩
  · have hle : 2 * tableNumber t + half.val ≤ 17 := by
      have := tableNumber_le t
      omega
    have hidx : (BitVec.ofNat 7 (2 * tableNumber t + half)).toNat = 2 * tableNumber t + half := by
      rw [BitVec.toNat_ofNat, Nat.mod_eq_of_lt (Nat.lt_of_le_of_lt hle (by decide))]
    refine (completes_of_answer1 (exec_ldcoef s F (by rwa [hidx]))).congr (fun j => ?_) fun _ => rfl
    rw [hidx, coefRow_get, tableLane_tableOf hwf]
  · rw [exec_ldcoef_illegal s F h]
    exact answeredIllegal_answerIllegal s

/-! ### F32 and F64 lanes of one bus (R55, R56) -/

/-- An F64 lane is two F32 lanes, the even one low. -/
theorem busLane_f64_eq_append (v : Bus) (k : Nat) :
    busLane .f64 v k = busLane .f32 v (2 * k + 1) ++ busLane .f32 v (2 * k) := by
  have h : 32 * (2 * k) = 64 * k := by omega
  simp only [busLane, Fmt.width]
  rw [BitVec.extractLsb'_append_extractLsb'_eq_extractLsb' (by omega), h]

/-- An F32 lane is in bits 127:0. -/
theorem busLane_f32_eq_low (v : Bus) (j : Fin 4) :
    busLane .f32 v j = (v.extractLsb' 0 128).extractLsb' (32 * j) 32 := by
  rw [BitVec.extractLsb'_extractLsb'_of_le (by omega)]
  rfl

/-- F64 lanes 2 and 3 are in bits 255:128. -/
theorem busLane_f64_eq_zero {v : Bus} (h : v.extractLsb' 128 128 = 0) {k : Nat} (hlo : 2 ≤ k) (hhi : k < 4) :
    busLane .f64 v k = 0 := by
  apply BitVec.eq_of_getLsbD_eq
  intro i hi
  have hbit := congrArg (fun u => u.getLsbD (64 * k + i - 128)) h
  simp only [Fmt.width] at hi
  simpa [busLane, hi, show 64 * k + i - 128 < 128 by omega, show 128 + (64 * k + i - 128) = 64 * k + i by omega]
    using hbit

/-- Settles O60. -/
theorem mixedWidths : Obligations.MixedWidths := by
  unfold Obligations.MixedWidths
  refine ⟨fun v k => ?_, fun v v' h => ?_, fun v => ?_⟩
  · rw [busLane_f64_eq_append]
    exact ⟨BitVec.extractLsb'_append_eq_right.symm, BitVec.extractLsb'_append_eq_left.symm⟩
  · refine Lanes.ext_get fun j => ?_
    rw [lanesOfBus_get, lanesOfBus_get, busLane_f32_eq_low, busLane_f32_eq_low, h]
  · have lane := busLane_busOfLanes v
    have upper := busOfLanes_f32_upper v
    refine ⟨?_, ?_, busLane_f64_eq_zero upper le_rfl (by decide), busLane_f64_eq_zero upper (by decide) (by decide)⟩
    · rw [busLane_f64_eq_append]
      exact congrArg₂ _ (lane 1) (lane 0)
    · rw [busLane_f64_eq_append]
      exact congrArg₂ _ (lane 3) (lane 2)

end Sys2Proof.Machine
end

section
/-!
PROOFS of 20_memory.md, the numeric constants (R42). A normal lane that is less than half a unit in its last place from
a real number is that number rounded to nearest even, because every other finite lane is a whole unit or more away; and
the constants' reals are that near by the bounds on π.
-/

namespace Sys2Proof.Machine

/-! ### The quanta of a normal lane (R102) -/

section normal

variable {F : Fmt} {x y : Lane F} {k d f : Nat}

theorem quanta_of_subnormal (h : magnitude F x < 2 ^ F.fracBits) : quanta F x = magnitude F x := by
  simp only [quanta, quantaOfMagnitude]
  rw [if_pos (Nat.div_eq_of_lt h), Nat.mod_eq_of_lt h]

/-- Exponent field `k + 1` and fraction `f`. -/
theorem quanta_of_normal (hf : f < 2 ^ F.fracBits) (h : magnitude F x = (k + 1) * 2 ^ F.fracBits + f) :
    quanta F x = (2 ^ F.fracBits + f) * 2 ^ k := by
  have hdiv : magnitude F x / 2 ^ F.fracBits = k + 1 := by
    rw [h, Nat.add_comm, Nat.add_mul_div_right _ _ (Nat.two_pow_pos _), Nat.div_eq_of_lt hf, Nat.zero_add]
  have hmod : magnitude F x % 2 ^ F.fracBits = f := by
    rw [h, Nat.add_comm, Nat.add_mul_mod_self_right, Nat.mod_eq_of_lt hf]
  simp only [quanta, quantaOfMagnitude, hdiv, hmod]
  rw [if_neg (Nat.succ_ne_zero k), Nat.add_sub_cancel]

/-- Every magnitude is a subnormal's or a normal's. -/
theorem magnitude_cases (x : Lane F) :
    magnitude F x < 2 ^ F.fracBits ∨
      ∃ k f, f < 2 ^ F.fracBits ∧ magnitude F x = (k + 1) * 2 ^ F.fracBits + f := by
  by_cases h : magnitude F x < 2 ^ F.fracBits
  · exact .inl h
  · have hpos : 0 < magnitude F x / 2 ^ F.fracBits := Nat.div_pos (Nat.le_of_not_lt h) (Nat.two_pow_pos _)
    refine .inr ⟨magnitude F x / 2 ^ F.fracBits - 1, magnitude F x % 2 ^ F.fracBits,
      Nat.mod_lt _ (Nat.two_pow_pos _), ?_⟩
    rw [Nat.sub_add_cancel hpos, Nat.div_add_mod']

/-- At or above exponent field `k + 1` a lane is a whole number of units of `2 ^ k` quanta; below it, it is below the
smallest normal lane of that exponent. -/
theorem quanta_lt_or_dvd (x : Lane F) (k : Nat) : quanta F x < 2 ^ F.fracBits * 2 ^ k ∨ 2 ^ k ∣ quanta F x := by
  obtain h | ⟨k', f', hf', h⟩ := magnitude_cases x
  · left
    rw [quanta_of_subnormal h]
    exact Nat.lt_of_lt_of_le h (Nat.le_mul_of_pos_right _ (Nat.two_pow_pos k))
  · rw [quanta_of_normal hf' h]
    obtain hk | hk := Nat.lt_or_ge k' k
    · left
      calc (2 ^ F.fracBits + f') * 2 ^ k' < (2 ^ F.fracBits + 2 ^ F.fracBits) * 2 ^ k' :=
            Nat.mul_lt_mul_of_pos_right (Nat.add_lt_add_left hf' _) (Nat.two_pow_pos _)
        _ = 2 ^ F.fracBits * 2 ^ (k' + 1) := by ring
        _ ≤ 2 ^ F.fracBits * 2 ^ k := Nat.mul_le_mul_left _ (Nat.pow_le_pow_right (by decide) hk)
    · right
      exact Dvd.dvd.mul_left (Nat.pow_dvd_pow 2 hk) _

theorem signedQuanta_lt_or_dvd (x : Lane F) (k : Nat) :
    signedQuanta F x < 2 ^ F.fracBits * 2 ^ k ∨ (2 : ℤ) ^ k ∣ signedQuanta F x := by
  unfold signedQuanta
  split
  · left
    have : (0 : ℤ) < 2 ^ F.fracBits * 2 ^ k := by positivity
    omega
  · exact_mod_cast quanta_lt_or_dvd x k

/-- A normal lane of sign `s`: exponent field `k + 1`, fraction `f`, and a last place of `2 ^ -d`. -/
structure NormalLane (F : Fmt) (x : Lane F) (s : Bool) (k d f : Nat) : Prop where
  sign : signbit F x = s
  fraction_lt : f < 2 ^ F.fracBits
  magnitude_eq : magnitude F x = (k + 1) * 2 ^ F.fracBits + f
  exponent : k + d = quantumExp F

/-- The value of a normal lane is its significand over a power of 2. -/
theorem NormalLane.laneValue_eq {s : Bool} (h : NormalLane F x s k d f) :
    laneValue F x = (if s then -1 else 1) * (2 ^ F.fracBits + f) / 2 ^ d := by
  rw [laneValue, signedQuanta, h.sign, quanta_of_normal h.fraction_lt h.magnitude_eq, ← h.exponent, pow_add]
  split <;> push_cast <;> field_simp

theorem laneValue_of_magnitude_eq_zero (h : magnitude F x = 0) : laneValue F x = 0 := by
  have hq : quanta F x = 0 := by rw [quanta_of_subnormal (by rw [h]; exact Nat.two_pow_pos _), h]
  simp [laneValue, signedQuanta, hq]

/-- No lane but those of its own value is nearer than a unit `2 ^ -d` to a positive normal lane whose fraction is not 0:
one of a higher or the same exponent is a whole number of units away, and one of a lower exponent is past the fraction. -/
theorem laneValue_gap (hx : NormalLane F x false k d f) (hf : 0 < f) (hne : laneValue F y ≠ laneValue F x) :
    1 / 2 ^ d ≤ |laneValue F y - laneValue F x| := by
  have hsx : signedQuanta F x = (2 ^ F.fracBits + f) * 2 ^ k := by
    rw [signedQuanta, hx.sign, quanta_of_normal hx.fraction_lt hx.magnitude_eq]
    push_cast
    rfl
  have hgap : (2 : ℤ) ^ k ≤ |signedQuanta F y - signedQuanta F x| := by
    rw [hsx]
    obtain hlt | hdvd := signedQuanta_lt_or_dvd y k
    · have hunit : (2 : ℤ) ^ k ≤ f * 2 ^ k := le_mul_of_one_le_left (by positivity) (by exact_mod_cast hf)
      rw [abs_sub_comm]
      exact le_trans (by linarith) (le_abs_self _)
    · have hne' : signedQuanta F y - (2 ^ F.fracBits + f) * 2 ^ k ≠ 0 :=
        sub_ne_zero.mpr fun h => hne (by rw [laneValue, laneValue, hsx, h])
      exact Int.le_of_dvd (abs_pos.mpr hne') ((dvd_abs _ _).mpr (dvd_sub hdvd (dvd_mul_left _ _)))
  have hgap' : (2 : ℚ) ^ k ≤ |(signedQuanta F y : ℚ) - signedQuanta F x| := by exact_mod_cast hgap
  rw [laneValue, laneValue, ← sub_div, abs_div, abs_of_pos (by positivity : (0 : ℚ) < 2 ^ quantumExp F), ← hx.exponent,
    pow_add]
  calc (1 : ℚ) / 2 ^ d = 2 ^ k / (2 ^ k * 2 ^ d) := by field_simp
    _ ≤ |(signedQuanta F y : ℚ) - signedQuanta F x| / (2 ^ k * 2 ^ d) := by gcongr

/-- A normal lane with no more than 1 in its last place is finite. -/
theorem NormalLane.isFinite {s : Bool} (h : NormalLane F x s k d f) : isFinite F x = true := by
  have hexp : quantumExp F + 2 < 2 ^ F.expBits := by cases F <;> decide
  have hk := h.exponent
  rw [Machine.isFinite, decide_eq_true_eq, h.magnitude_eq, infMagnitude]
  calc (k + 1) * 2 ^ F.fracBits + f < (k + 1) * 2 ^ F.fracBits + 2 ^ F.fracBits := Nat.add_lt_add_left h.fraction_lt _
    _ = (k + 2) * 2 ^ F.fracBits := by ring
    _ ≤ (2 ^ F.expBits - 1) * 2 ^ F.fracBits := Nat.mul_le_mul_right _ (by omega)

theorem two_pow_le_overflowBound (F : Fmt) : (2 : ℝ) ^ (F.fracBits + 1) ≤ overflowBound F := by
  have hone : (1 : ℝ) ≤ 2 ^ (F.bias - F.fracBits - 1) := one_le_pow₀ one_le_two
  have hsig : (1 : ℝ) ≤ 2 ^ (F.fracBits + 1) := one_le_pow₀ one_le_two
  have hdouble : (2 : ℝ) ^ (F.fracBits + 2) = 2 * 2 ^ (F.fracBits + 1) := by ring
  rw [overflowBound]
  push_cast
  calc (2 : ℝ) ^ (F.fracBits + 1) ≤ 2 ^ (F.fracBits + 2) - 1 := by linarith
    _ ≤ (2 ^ (F.fracBits + 2) - 1) * 2 ^ (F.bias - F.fracBits - 1) := le_mul_of_one_le_right (by linarith) hone

/-- A positive normal lane whose fraction is not 0 is the rounding of every real less than half a unit of its last place
away (R42, R103). -/
theorem NormalLane.roundsTo {v : ℝ} (hx : NormalLane F x false k d f) (hf : 0 < f)
    (hv : |v * 2 ^ d - (2 ^ F.fracBits + f)| < 1 / 2) : RoundsTo F v x := by
  have hd : (0 : ℝ) < 2 ^ d := by positivity
  have hval : (laneValue F x : ℝ) * 2 ^ d = 2 ^ F.fracBits + f := by
    rw [hx.laneValue_eq]
    push_cast
    simp
  have hnear : |(laneValue F x : ℝ) - v| * 2 ^ d < 1 / 2 := by
    rw [← abs_of_pos hd, ← abs_mul, sub_mul, hval, abs_sub_comm]
    exact hv
  have hfar : ∀ y : Lane F, laneValue F y ≠ laneValue F x →
      |(laneValue F x : ℝ) - v| < |(laneValue F y : ℝ) - v| := by
    intro y hne
    have hgap : (1 : ℝ) / 2 ^ d ≤ |(laneValue F y : ℝ) - laneValue F x| := by
      simpa using (Rat.cast_le (K := ℝ)).mpr (laneValue_gap hx hf hne)
    have hgap' : 1 ≤ |(laneValue F y : ℝ) - laneValue F x| * 2 ^ d := by rwa [div_le_iff₀ hd] at hgap
    have htri := abs_sub_le (laneValue F y : ℝ) v (laneValue F x)
    rw [abs_sub_comm v] at htri
    nlinarith
  have hbound : |v| < overflowBound F := by
    have hfrac : (f : ℝ) + 1 ≤ 2 ^ F.fracBits := by exact_mod_cast hx.fraction_lt
    have hle : |v| ≤ |v * 2 ^ d| := by
      rw [abs_mul, abs_of_pos hd]
      exact le_mul_of_one_le_right (abs_nonneg v) (one_le_pow₀ one_le_two)
    have hsum := abs_sub_abs_le_abs_sub (v * 2 ^ d) (2 ^ F.fracBits + f)
    rw [abs_of_pos (by positivity : (0 : ℝ) < 2 ^ F.fracBits + f)] at hsum
    calc |v| ≤ |v * 2 ^ d| := hle
      _ < 2 ^ F.fracBits + 2 ^ F.fracBits := by linarith
      _ = 2 ^ (F.fracBits + 1) := by ring
      _ ≤ overflowBound F := two_pow_le_overflowBound F
  refine ⟨fun _ => ⟨hx.isFinite, fun y _ => ?_⟩, fun h => ?_, fun h => ?_⟩
  · by_cases hne : laneValue F y = laneValue F x
    · exact ⟨by rw [hne], fun _ h => absurd hne h⟩
    · exact ⟨(hfar y hne).le, fun h => absurd h (hfar y hne).ne⟩
  · exact absurd (le_abs_self v) (not_le.mpr (hbound.trans_le h))
  · exact absurd (neg_le_abs v) (not_le.mpr (hbound.trans_le (le_neg_of_le_neg h)))

end normal

/-! ### The numeric constants as lanes (R42, R44) -/

section constants

variable (F : Fmt)

/-- The fraction of π, and of its halves and doubles. -/
def piFraction : Fmt → Nat
  | .f32 => 0x490FDB
  | .f64 => 0x921FB54442D18

/-- The fraction of 1/π and 1/(2π). -/
def invPiFraction : Fmt → Nat
  | .f32 => 0x22F983
  | .f64 => 0x45F306DC9C883

/-- The fraction of 3π/4. -/
def threeQuarterPiFraction : Fmt → Nat
  | .f32 => 0x16CBE4
  | .f64 => 0x2D97C7F3321D2

theorem normalLane_one : NormalLane F (constLane F 1) false (F.bias - 1) F.fracBits 0 := by
  cases F <;> exact ⟨rfl, by decide, rfl, rfl⟩

theorem normalLane_negOne : NormalLane F (constLane F 2) true (F.bias - 1) F.fracBits 0 := by
  cases F <;> exact ⟨rfl, by decide, rfl, rfl⟩

theorem normalLane_pi : NormalLane F (constLane F 3) false F.bias (F.fracBits - 1) (piFraction F) := by
  cases F <;> exact ⟨rfl, by decide, rfl, rfl⟩

theorem normalLane_halfPi : NormalLane F (constLane F 4) false (F.bias - 1) F.fracBits (piFraction F) := by
  cases F <;> exact ⟨rfl, by decide, rfl, rfl⟩

theorem normalLane_quarterPi : NormalLane F (constLane F 5) false (F.bias - 2) (F.fracBits + 1) (piFraction F) := by
  cases F <;> exact ⟨rfl, by decide, rfl, rfl⟩

theorem normalLane_twoPi : NormalLane F (constLane F 6) false (F.bias + 1) (F.fracBits - 2) (piFraction F) := by
  cases F <;> exact ⟨rfl, by decide, rfl, rfl⟩

theorem normalLane_oneOverPi :
    NormalLane F (constLane F 7) false (F.bias - 3) (F.fracBits + 2) (invPiFraction F) := by
  cases F <;> exact ⟨rfl, by decide, rfl, rfl⟩

theorem normalLane_oneOverTwoPi :
    NormalLane F (constLane F 8) false (F.bias - 4) (F.fracBits + 3) (invPiFraction F) := by
  cases F <;> exact ⟨rfl, by decide, rfl, rfl⟩

theorem normalLane_threeQuarterPi :
    NormalLane F (constLane F 9) false F.bias (F.fracBits - 1) (threeQuarterPiFraction F) := by
  cases F <;> exact ⟨rfl, by decide, rfl, rfl⟩

theorem normalLane_tanEps : NormalLane F (constLane F 21) false (F.bias - F.fracBits - 1) (2 * F.fracBits) 0 := by
  cases F <;> exact ⟨rfl, by decide, rfl, rfl⟩

theorem piFraction_pos : 0 < piFraction F := by cases F <;> decide

theorem invPiFraction_pos : 0 < invPiFraction F := by cases F <;> decide

theorem threeQuarterPiFraction_pos : 0 < threeQuarterPiFraction F := by cases F <;> decide

/-! ### Their significands, by twenty decimal places of π -/

theorem pi_near : |Real.pi * 2 ^ (F.fracBits - 1) - (2 ^ F.fracBits + piFraction F)| < 1 / 2 := by
  have hlo := Real.pi_gt_d20
  have hhi := Real.pi_lt_d20
  rw [abs_lt]
  cases F <;> constructor <;> norm_num [Fmt.fracBits, piFraction] <;> linarith

/-- `1 / c` scaled by `n` is near `m`, multiplied out. -/
theorem one_div_near {c n m : ℝ} (hc : 0 < c) (hlo : (m - 1 / 2) * c < n) (hhi : n < (m + 1 / 2) * c) :
    |1 / c * n - m| < 1 / 2 := by
  have hlo' : m - 1 / 2 < n / c := (lt_div_iff₀ hc).mpr hlo
  have hhi' : n / c < m + 1 / 2 := (div_lt_iff₀ hc).mpr hhi
  rw [one_div_mul_eq_div, abs_lt]
  constructor <;> linarith

theorem invPi_near : |1 / Real.pi * 2 ^ (F.fracBits + 2) - (2 ^ F.fracBits + invPiFraction F)| < 1 / 2 := by
  have hlo := Real.pi_gt_d20
  have hhi := Real.pi_lt_d20
  refine one_div_near Real.pi_pos ?_ ?_ <;> cases F <;> norm_num [Fmt.fracBits, invPiFraction] <;> linarith

theorem threeQuarterPi_near :
    |3 * Real.pi / 4 * 2 ^ (F.fracBits - 1) - (2 ^ F.fracBits + threeQuarterPiFraction F)| < 1 / 2 := by
  have hlo := Real.pi_gt_d20
  have hhi := Real.pi_lt_d20
  rw [abs_lt]
  cases F <;> constructor <;> norm_num [Fmt.fracBits, threeQuarterPiFraction] <;> linarith

/-- The halves and the doubles of π have its significand, so they are as near. -/
theorem pi_near_scaled {v : ℝ} {d : Nat} (h : v * 2 ^ d = Real.pi * 2 ^ (F.fracBits - 1)) :
    |v * 2 ^ d - (2 ^ F.fracBits + piFraction F)| < 1 / 2 := by
  rw [h]
  exact pi_near F

/-- The scales of π and π/2 as multiples of that of 2π, the smallest. -/
theorem two_pow_fracBits : (2 : ℝ) ^ F.fracBits = 2 ^ (F.fracBits - 2) * 4 ∧
    (2 : ℝ) ^ (F.fracBits - 1) = 2 ^ (F.fracBits - 2) * 2 := by
  cases F <;> norm_num [Fmt.fracBits]

end constants

/-- Settles O59: π's family, the inverses and 3π/4 by their significands; the other constants by their values. -/
theorem constantsNearest : Obligations.ConstantsNearest := by
  unfold Obligations.ConstantsNearest
  intro F
  obtain ⟨h0, h1⟩ := two_pow_fracBits F
  refine ⟨(normalLane_pi F).roundsTo (piFraction_pos F) (pi_near F),
    (normalLane_halfPi F).roundsTo (piFraction_pos F) (pi_near_scaled F (by rw [h0, h1]; ring)),
    (normalLane_quarterPi F).roundsTo (piFraction_pos F) (pi_near_scaled F (by rw [pow_succ, h0, h1]; ring)),
    (normalLane_twoPi F).roundsTo (piFraction_pos F) (pi_near_scaled F (by rw [h1]; ring)),
    (normalLane_oneOverPi F).roundsTo (invPiFraction_pos F) (invPi_near F),
    (normalLane_oneOverTwoPi F).roundsTo (invPiFraction_pos F) ?_,
    (normalLane_threeQuarterPi F).roundsTo (threeQuarterPiFraction_pos F) (threeQuarterPi_near F),
    laneValue_of_magnitude_eq_zero ?_, ?_, ?_, ?_, laneValue_of_magnitude_eq_zero ?_, ?_, ?_⟩
  · have hhalf : 1 / (2 * Real.pi) * 2 ^ (F.fracBits + 3) = 1 / Real.pi * 2 ^ (F.fracBits + 2) := by
      rw [pow_succ _ (F.fracBits + 2)]
      field_simp
    rw [hhalf]
    exact invPi_near F
  · cases F <;> rfl
  · rw [(normalLane_one F).laneValue_eq]
    simp
  · rw [(normalLane_negOne F).laneValue_eq]
    simp
  · rw [(normalLane_tanEps F).laneValue_eq, two_mul, pow_add]
    simp
  · cases F <;> rfl
  · cases F <;> rfl
  · cases F <;> rfl

end Sys2Proof.Machine
end

section
/-!
PROOFS of 30_encoding.md. The command word and its fields determine each other (R70), each shape of row of the opcode map
keeps every field (R73 to R76), so the decoder and the encoder are inverse (R78, R79); and a word that is not legal is
answered as illegal (R77, R261). One declaration at a time, as in the tests: threads add up in the check's memory limit.
-/

namespace Sys2Proof

set_option Elab.async false

/-! ### A word is its fields (R70) -/

/-- The word with these fields, the opcode `opc` and RSV = 0. -/
def WordFields.word (f : WordFields) (opc : BitVec 6) : Word := commandWord opc f.fmt f.apx f.sb f.idx

@[simp] theorem opcodeOf_word (f : WordFields) (opc : BitVec 6) : opcodeOf (f.word opc) = opc :=
  opcodeOf_commandWord ..

@[simp] theorem fieldsOf_word (f : WordFields) (opc : BitVec 6) : fieldsOf (f.word opc) = f :=
  fieldsOf_commandWord ..

@[simp] theorem reservedOf_word (f : WordFields) (opc : BitVec 6) : reservedOf (f.word opc) = 0 :=
  reservedOf_commandWord ..

theorem fmtOfBit_inj {a b : Bool} (h : fmtOfBit a = fmtOfBit b) : a = b := by
  cases a <;> cases b <;> simp [fmtOfBit] at h ⊢

@[simp] theorem opcodeOf_getLsbD (w : Word) {k : Nat} (hk : k < 6) : (opcodeOf w).getLsbD k = w.getLsbD k := by
  simp [opcodeOf, hk]

@[simp] theorem fieldsOf_idx_getLsbD (w : Word) {k : Nat} (hk : k < 7) :
    (fieldsOf w).idx.getLsbD k = w.getLsbD (9 + k) := by
  simp [fieldsOf, hk]

@[simp] theorem reservedOf_getLsbD (w : Word) {k : Nat} (hk : k < 16) :
    (reservedOf w).getLsbD k = w.getLsbD (16 + k) := by
  simp [reservedOf, hk]

/-- No bit of a word lies outside its fields. -/
theorem word_ext {w v : Word} (hopc : opcodeOf w = opcodeOf v) (hf : fieldsOf w = fieldsOf v)
    (hr : reservedOf w = reservedOf v) : w = v := by
  have hfmt : w.getLsbD 6 = v.getLsbD 6 := fmtOfBit_inj (congrArg WordFields.fmt hf)
  have hapx : w.getLsbD 7 = v.getLsbD 7 := congrArg WordFields.apx hf
  have hsb : w.getLsbD 8 = v.getLsbD 8 := congrArg WordFields.sb hf
  apply BitVec.eq_of_getLsbD_eq
  intro k hk
  obtain h | rfl | rfl | rfl | ⟨j, hj, rfl⟩ | ⟨j, hj, rfl⟩ :
      k < 6 ∨ k = 6 ∨ k = 7 ∨ k = 8 ∨ (∃ j < 7, k = 9 + j) ∨ ∃ j < 16, k = 16 + j := by
    by_cases hlo : k < 9
    · omega
    · by_cases hhi : k < 16
      · exact .inr <| .inr <| .inr <| .inr <| .inl ⟨k - 9, by omega, by omega⟩
      · exact .inr <| .inr <| .inr <| .inr <| .inr ⟨k - 16, by omega, by omega⟩
  · rw [← opcodeOf_getLsbD w h, hopc, opcodeOf_getLsbD v h]
  · exact hfmt
  · exact hapx
  · exact hsb
  · rw [← fieldsOf_idx_getLsbD w hj, hf, fieldsOf_idx_getLsbD v hj]
  · rw [← reservedOf_getLsbD w hj, hr, reservedOf_getLsbD v hj]

/-- A word with RSV = 0 is built from its own fields. -/
theorem word_fieldsOf {w : Word} (hr : reservedOf w = 0) : (fieldsOf w).word (opcodeOf w) = w :=
  word_ext (opcodeOf_word _ _) (fieldsOf_word _ _) ((reservedOf_word _ _).trans hr.symm)

/-! ### Decoding an encoded command (R79) -/

theorem decode_commandWord (opc : BitVec 6) (fmt : Fmt) (apx sb : Bool) (idx : BitVec 7) :
    decode (commandWord opc fmt apx sb idx) = decodeOpcode opc.toNat ⟨fmt, apx, sb, idx⟩ := by
  rw [decode, if_pos (reservedOf_commandWord ..), opcodeOf_commandWord, fieldsOf_commandWord]

/-- Settles O1, by the shape of the command's row in the opcode map. -/
theorem decodeEncode : Obligations.DecodeEncode := by
  unfold Obligations.DecodeEncode
  intro i hw
  cases i with
  | sqr F | sqrt F | abs F | neg F | round F | trunc F | extsign F | mod2pi F | fold F | rdcap F | rdstat F =>
    exact (decode_commandWord ..).trans (plain_eq_ok_iff.mpr ⟨rfl, rfl, rfl, rfl⟩)
  | add F sb | sub F sb | mul F sb | div F sb | min F sb | max F sb | rem F sb | clamp F sb | cmpeq F sb | cmpne F sb
  | cmplt F sb | cmple F sb | cmpgt F sb | cmpge F sb | inbounds F sb | and F sb | or F sb | andnot F sb | xor F sb
  | select F sb | copysign F sb | hadd F sb =>
    exact (decode_commandWord ..).trans (plainBinary_eq_ok_iff.mpr ⟨rfl, rfl, rfl⟩)
  | rcp F apx | rsqrt F apx | sin F apx | cos F apx | sincos F apx | atan F apx =>
    exact (decode_commandWord ..).trans (tieredUnary_eq_ok_iff.mpr ⟨rfl, rfl, rfl⟩)
  | tan F | tanapprox F => exact (decode_commandWord ..).trans rfl -- one opcode, told apart by APX (R79)
  | atan2 F apx sb => exact (decode_commandWord ..).trans (tieredBinary_eq_ok_iff.mpr ⟨rfl, rfl⟩)
  | bcast F idx | ldconst F idx | ldcoef F idx =>
    exact (decode_commandWord ..).trans (indexed_eq_ok_iff.mpr ⟨rfl, rfl, of_decide_eq_true hw, rfl⟩)

/-! ### Encoding a decoded command: each shape of row drops no field (R73 to R76) -/

section rows

variable {opc : BitVec 6} {f : WordFields} {i : Instr}

theorem encode_of_plain {mk : Fmt → Instr} (hmk : ∀ F, encode (mk F) = commandWord opc F false false 0)
    (h : plain mk f = .ok i) : encode i = f.word opc := by
  obtain ⟨hapx, hsb, hidx, rfl⟩ := plain_eq_ok_iff.mp h
  rw [hmk, WordFields.word, hapx, hsb, (idx_eq_zero_iff _).mpr hidx]

theorem encode_of_plainBinary {mk : Fmt → Bool → Instr}
    (hmk : ∀ F sb, encode (mk F sb) = commandWord opc F false sb 0) (h : plainBinary mk f = .ok i) :
    encode i = f.word opc := by
  obtain ⟨hapx, hidx, rfl⟩ := plainBinary_eq_ok_iff.mp h
  rw [hmk, WordFields.word, hapx, (idx_eq_zero_iff _).mpr hidx]

theorem encode_of_tieredUnary {mk : Fmt → Bool → Instr}
    (hmk : ∀ F apx, encode (mk F apx) = commandWord opc F apx false 0) (h : tieredUnary mk f = .ok i) :
    encode i = f.word opc := by
  obtain ⟨hsb, hidx, rfl⟩ := tieredUnary_eq_ok_iff.mp h
  rw [hmk, WordFields.word, hsb, (idx_eq_zero_iff _).mpr hidx]

theorem encode_of_tieredBinary {mk : Fmt → Bool → Bool → Instr}
    (hmk : ∀ F apx sb, encode (mk F apx sb) = commandWord opc F apx sb 0) (h : tieredBinary mk f = .ok i) :
    encode i = f.word opc := by
  obtain ⟨hidx, rfl⟩ := tieredBinary_eq_ok_iff.mp h
  rw [hmk, WordFields.word, (idx_eq_zero_iff _).mpr hidx]

theorem encode_of_indexed {mk : Fmt → BitVec 7 → Instr} {limit : Nat}
    (hmk : ∀ F idx, encode (mk F idx) = commandWord opc F false false idx) (h : indexed mk limit f = .ok i) :
    encode i = f.word opc := by
  obtain ⟨hapx, hsb, -, rfl⟩ := indexed_eq_ok_iff.mp h
  rw [hmk, WordFields.word, hapx, hsb]

end rows

/-- By the shape of the row: `h_n` is the row of opcode `n`. -/
theorem encode_of_decodeOpcode {opc : Nat} {f : WordFields} {i : Instr} (h : decodeOpcode opc f = .ok i) :
    encode i = f.word (BitVec.ofNat 6 opc) := by
  unfold decodeOpcode at h
  split at h
  case h_5 | h_6 | h_9 | h_10 | h_11 | h_12 | h_30 | h_33 | h_34 | h_43 | h_44 =>
    exact encode_of_plain (fun _ => rfl) h
  case h_1 | h_2 | h_3 | h_4 | h_7 | h_8 | h_13 | h_14 | h_17 | h_18 | h_19 | h_20 | h_21 | h_22 | h_23 | h_24 | h_25 |
      h_26 | h_27 | h_28 | h_29 | h_31 =>
    exact encode_of_plainBinary (fun _ _ => rfl) h
  case h_15 | h_16 | h_35 | h_36 | h_37 | h_39 => exact encode_of_tieredUnary (fun _ _ => rfl) h
  case h_38 => exact encode_of_tieredUnary (fun _ apx => by cases apx <;> rfl) h
  case h_40 => exact encode_of_tieredBinary (fun _ _ _ => rfl) h
  case h_32 | h_41 | h_42 => exact encode_of_indexed (fun _ _ => rfl) h
  case h_45 => cases h

/-- A word that decodes is the word of its command (R70, R79). -/
theorem encode_of_decode {w : Word} {i : Instr} (h : decode w = .ok i) : encode i = w := by
  unfold decode at h
  split at h
  · next hr =>
    calc
      encode i = (fieldsOf w).word (BitVec.ofNat 6 (opcodeOf w).toNat) := encode_of_decodeOpcode h
      _ = (fieldsOf w).word (opcodeOf w) := by rw [BitVec.ofNat_toNat, BitVec.setWidth_eq]
      _ = w := word_fieldsOf hr
  · cases h

/-- Settles O2. -/
theorem encodeDecode : Obligations.EncodeDecode := by
  unfold Obligations.EncodeDecode
  exact fun _ _ h => ⟨encode_of_decode h, wellFormed_of_decode h⟩

/-! ### Words that are not legal (R77, R78, R261) -/

/-- An illegal word is answered as illegal in every state (R261). -/
theorem answeredIllegal_runCommand {w : Word} (h : ¬ Machine.Legal w) (s : Machine.State) :
    Machine.AnsweredIllegal s (Machine.runCommand w s) := by
  unfold Machine.runCommand
  split
  · next i hi => exact absurd ((decode_isOk_iff_legal w).mp ⟨i, hi⟩) h
  · exact Machine.answeredIllegal_answerIllegal s

/-- Settles O3. -/
theorem decodeIffLegal : Obligations.DecodeIffLegal := by
  unfold Obligations.DecodeIffLegal
  exact ⟨decode_isOk_iff_legal, fun _ s h => answeredIllegal_runCommand h s⟩

/-- A 1 in RSV is not legal (R77). -/
theorem not_legal_of_reserved_bit {w : Word} {k : Nat} (hlo : 16 ≤ k) (hhi : k < 32) (hbit : w.getLsbD k = true) :
    ¬ Machine.Legal w := by
  rintro ⟨hrsv, -⟩
  have hzero : reservedOf w = 0 := (reservedOf_eq_zero_iff w).mpr hrsv
  have hone : (reservedOf w).getLsbD (k - 16) = true := by
    rw [reservedOf_getLsbD w (by omega), Nat.add_sub_cancel' hlo, hbit]
  simp [hzero] at hone

/-- Settles O4: such a word is not legal. -/
theorem reservedFieldRefused : Obligations.ReservedFieldRefused := by
  unfold Obligations.ReservedFieldRefused
  intro w k s hlo hhi hbit
  have hillegal := not_legal_of_reserved_bit hlo hhi hbit
  exact ⟨fun i hi => hillegal ((decode_isOk_iff_legal w).mp ⟨i, hi⟩), answeredIllegal_runCommand hillegal s⟩

/-! ### Words written out in the spec (R83, R85, R276) -/

/-- Settles O5: each word is a closed term of the decoder. -/
theorem writtenWords : Obligations.WrittenWords := by
  unfold Obligations.WrittenWords
  decide

end Sys2Proof
end

section
/-!
PROOFS of 40_arith.md, the special operands (R102, R105 to R107). What each primitive does with NaNs, infinities, zeros
and finite lanes is said once per primitive and case; from these the invalid operations (R106) and the order of NaN
operands (R105). The order of the patterns is the order of the values; from it the ordered predicates (R107), CLAMP and ABS
(R135). Last, REM's table (R122).
-/

namespace Sys2Proof.Machine

set_option Elab.async false

/-! ### The classes exclude each other (R102) -/

section classes

variable {F : Fmt} {x : Lane F}

theorem not_isNaN_of_isInf (h : isInf F x = true) : isNaN F x = false := by
  rw [isInf, beq_iff_eq] at h
  simp [isNaN, h]

theorem not_isZero_of_isInf (h : isInf F x = true) : isZero F x = false := by
  rw [isInf, beq_iff_eq] at h
  simp [isZero, h, (infMagnitude_pos F).ne']

theorem not_isNaN_of_isFinite (h : isFinite F x = true) : isNaN F x = false := ((isFinite_iff F x).mp h).1

theorem not_isInf_of_isFinite (h : isFinite F x = true) : isInf F x = false := ((isFinite_iff F x).mp h).2

theorem not_isNaN_of_isZero (h : isZero F x = true) : isNaN F x = false := not_isNaN_of_isFinite (isFinite_of_isZero h)

theorem not_isInf_of_isZero (h : isZero F x = true) : isInf F x = false := not_isInf_of_isFinite (isFinite_of_isZero h)

/-- An infinity is the one of its sign. -/
theorem eq_infinity_of_isInf (h : isInf F x = true) : x = infinity F (signbit F x) := by
  rw [isInf, beq_iff_eq] at h
  conv_lhs => rw [← pack_signbit_magnitude F x, h]
  rfl

/-- A zero is the one of its sign. -/
theorem eq_zero_of_isZero (h : isZero F x = true) : x = zero F (signbit F x) := by
  rw [isZero, beq_iff_eq] at h
  conv_lhs => rw [← pack_signbit_magnitude F x, h]
  rfl

end classes

/-! ### The lanes with names: ±∞, ±0, the default NaN -/

section named

variable (F : Fmt) (s : Bool)

@[simp] theorem magnitude_infinity : magnitude F (infinity F s) = infMagnitude F := magnitude_pack s (infMagnitude_lt F)

@[simp] theorem signbit_infinity : signbit F (infinity F s) = s := signbit_pack s (infMagnitude_lt F)

@[simp] theorem isInf_infinity : isInf F (infinity F s) = true := by simp [isInf]

@[simp] theorem magnitude_zero : magnitude F (zero F s) = 0 := magnitude_pack s (Nat.two_pow_pos _)

@[simp] theorem signbit_zero : signbit F (zero F s) = s := signbit_pack s (Nat.two_pow_pos _)

@[simp] theorem isZero_zero : isZero F (zero F s) = true := by simp [isZero]

@[simp] theorem isNaN_defaultNaN : isNaN F (defaultNaN F) = true := by cases F <;> decide

@[simp] theorem quiet_defaultNaN : quiet F (defaultNaN F) = defaultNaN F := by cases F <;> decide

end named

/-! ### The quiet bit and the sign bit (R105, R119) -/

section bits

variable {F : Fmt} (x : Lane F)

/-- `quiet_F` sets the quiet bit and keeps every other bit. -/
theorem quiet_getLsbD {k : Nat} (hk : k < F.width) : (quiet F x).getLsbD k = (x.getLsbD k || k == F.fracBits - 1) := by
  have hlt : F.fracBits - 1 < F.width := by cases F <;> decide
  rw [quiet, BitVec.getLsbD_or, BitVec.getLsbD_twoPow, decide_eq_true hlt, Bool.true_and, beq_eq_decide]
  simp only [eq_comm]

/-- A quieted NaN is quiet. -/
@[simp] theorem quiet_quiet : quiet F (quiet F x) = quiet F x := by
  rw [quiet, quiet, BitVec.or_assoc, BitVec.or_self]

/-- A quieted NaN is a NaN: setting a bit of the magnitude does not lower it. -/
theorem isNaN_quiet (h : isNaN F x = true) : isNaN F (quiet F x) = true := by
  have hle : magnitude F x ≤ magnitude F (quiet F x) := by
    rw [magnitude, magnitude, quiet, BitVec.toNat_or, Nat.or_mod_two_pow]
    exact Nat.left_le_or
  rw [isNaN, decide_eq_true_eq] at h ⊢
  omega

@[simp] theorem flipSign_flipSign : flipSign F (flipSign F x) = x := by
  rw [flipSign, flipSign, BitVec.xor_assoc, BitVec.xor_self, BitVec.xor_zero]

@[simp] theorem isNaN_flipSign : isNaN F (flipSign F x) = isNaN F x := by simp [isNaN]

@[simp] theorem isInf_flipSign : isInf F (flipSign F x) = isInf F x := by simp [isInf]

@[simp] theorem isFinite_flipSign : isFinite F (flipSign F x) = isFinite F x := by simp [isFinite]

@[simp] theorem isZero_flipSign : isZero F (flipSign F x) = isZero F x := by simp [isZero]

@[simp] theorem quanta_flipSign : quanta F (flipSign F x) = quanta F x := by simp [quanta]

@[simp] theorem signedQuanta_flipSign : signedQuanta F (flipSign F x) = -signedQuanta F x := by
  rw [signedQuanta, signedQuanta, signbit_flipSign, quanta_flipSign]
  cases signbit F x <;> simp

end bits

/-! ### The first NaN operand is returned quieted (R105) -/

section nan

variable {F : Fmt} {a b c : Lane F}

section first

variable (h : isNaN F a = true)

include h

theorem fadd_of_isNaN_left (b : Lane F) : fadd F a b = quiet F a := by rw [fadd, if_pos h]

theorem fsub_of_isNaN_left (b : Lane F) : fsub F a b = quiet F a := by rw [fsub, if_pos h]

theorem fmul_of_isNaN_left (b : Lane F) : fmul F a b = quiet F a := by rw [fmul, if_pos h]

theorem fdiv_of_isNaN_left (b : Lane F) : fdiv F a b = quiet F a := by rw [fdiv, if_pos h]

theorem fsqrt_of_isNaN : fsqrt F a = quiet F a := by rw [fsqrt, if_pos h]

theorem ffma_of_isNaN_left (b c : Lane F) : ffma F a b c = quiet F a := by rw [ffma, if_pos h]

theorem rintWith_of_isNaN (r : Nat → Nat → Nat) : rintWith r F a = quiet F a := by rw [rintWith, if_pos h]

end first

section second

variable (ha : isNaN F a = false) (h : isNaN F b = true)

include ha h

theorem fadd_of_isNaN_right : fadd F a b = quiet F b := by simp [fadd, ha, h]

theorem fsub_of_isNaN_right : fsub F a b = quiet F b := by simp [fsub, ha, h]

theorem fmul_of_isNaN_right : fmul F a b = quiet F b := by simp [fmul, ha, h]

theorem fdiv_of_isNaN_right : fdiv F a b = quiet F b := by simp [fdiv, ha, h]

theorem ffma_of_isNaN_middle (c : Lane F) : ffma F a b c = quiet F b := by simp [ffma, ha, h]

end second

theorem ffma_of_isNaN_right (ha : isNaN F a = false) (hb : isNaN F b = false) (h : isNaN F c = true) :
    ffma F a b c = quiet F c := by simp [ffma, ha, hb, h]

end nan

/-- The difference of numbers is the sum with the second sign flipped (R107). -/
theorem fsub_eq_fadd {F : Fmt} {a b : Lane F} (ha : isNaN F a = false) (hb : isNaN F b = false) :
    fsub F a b = fadd F a (flipSign F b) := by simp [fsub, ha, hb]

/-! ### Infinities and zeros (R106, R107) -/

section special

variable {F : Fmt} {a b c : Lane F}

theorem fadd_of_isInf_left (ha : isInf F a = true) (hb : isNaN F b = false)
    (hs : isInf F b = true → signbit F a = signbit F b) : fadd F a b = a := by
  cases hi : isInf F b
  · simp [fadd, not_isNaN_of_isInf ha, hb, ha, hi]
  · simp [fadd, not_isNaN_of_isInf ha, hb, ha, hi, hs hi]

theorem fadd_of_isInf_right (ha : isFinite F a = true) (hb : isInf F b = true) : fadd F a b = b := by
  simp [fadd, not_isNaN_of_isFinite ha, not_isInf_of_isFinite ha, not_isNaN_of_isInf hb, hb]

/-- ∞ - ∞ is invalid. -/
theorem fadd_of_isInf_opposite (ha : isInf F a = true) (hb : isInf F b = true) (hs : signbit F a ≠ signbit F b) :
    fadd F a b = defaultNaN F := by
  simp [fadd, not_isNaN_of_isInf ha, not_isNaN_of_isInf hb, ha, hb, hs]

theorem fmul_of_isInf_left (ha : isInf F a = true) (hb : isNaN F b = false) (hz : isZero F b = false) :
    fmul F a b = infinity F (signbit F a ^^ signbit F b) := by
  simp [fmul, not_isNaN_of_isInf ha, hb, ha, hz]

theorem fmul_of_isInf_right (ha : isNaN F a = false) (hz : isZero F a = false) (hb : isInf F b = true) :
    fmul F a b = infinity F (signbit F a ^^ signbit F b) := by
  cases hi : isInf F a
  · simp [fmul, ha, not_isNaN_of_isInf hb, hi, hb, hz]
  · exact fmul_of_isInf_left hi (not_isNaN_of_isInf hb) (not_isZero_of_isInf hb)

/-- 0 · ∞ is invalid. -/
theorem fmul_zero_inf (ha : isZero F a = true) (hb : isInf F b = true) : fmul F a b = defaultNaN F := by
  simp [fmul, not_isNaN_of_isZero ha, not_isNaN_of_isInf hb, not_isInf_of_isZero ha, hb, ha]

/-- ∞ · 0 is invalid. -/
theorem fmul_inf_zero (ha : isInf F a = true) (hb : isZero F b = true) : fmul F a b = defaultNaN F := by
  simp [fmul, not_isNaN_of_isInf ha, not_isNaN_of_isZero hb, ha, hb]

/-- ∞/∞ is invalid. -/
theorem fdiv_inf_inf (ha : isInf F a = true) (hb : isInf F b = true) : fdiv F a b = defaultNaN F := by
  simp [fdiv, not_isNaN_of_isInf ha, not_isNaN_of_isInf hb, ha, hb]

/-- 0/0 is invalid. -/
theorem fdiv_zero_zero (ha : isZero F a = true) (hb : isZero F b = true) : fdiv F a b = defaultNaN F := by
  simp [fdiv, not_isNaN_of_isZero ha, not_isNaN_of_isZero hb, not_isInf_of_isZero ha, not_isInf_of_isZero hb, ha, hb]

theorem fdiv_of_isInf_left (ha : isInf F a = true) (hb : isFinite F b = true) :
    fdiv F a b = infinity F (signbit F a ^^ signbit F b) := by
  simp [fdiv, not_isNaN_of_isInf ha, not_isNaN_of_isFinite hb, ha, not_isInf_of_isFinite hb]

theorem fdiv_of_isInf_right (ha : isFinite F a = true) (hb : isInf F b = true) :
    fdiv F a b = zero F (signbit F a ^^ signbit F b) := by
  simp [fdiv, not_isNaN_of_isFinite ha, not_isNaN_of_isInf hb, not_isInf_of_isFinite ha, hb]

/-- A number that is not zero, divided by a zero. -/
theorem fdiv_of_isZero_right (ha : isNaN F a = false) (hz : isZero F a = false) (hb : isZero F b = true) :
    fdiv F a b = infinity F (signbit F a ^^ signbit F b) := by
  cases hi : isInf F a
  · simp [fdiv, ha, not_isNaN_of_isZero hb, hi, not_isInf_of_isZero hb, hb, hz]
  · exact fdiv_of_isInf_left hi (isFinite_of_isZero hb)

theorem fsqrt_of_isZero (h : isZero F a = true) : fsqrt F a = a := by simp [fsqrt, not_isNaN_of_isZero h, h]

theorem fsqrt_of_isInf (h : isInf F a = true) (hs : signbit F a = false) : fsqrt F a = a := by
  simp [fsqrt, not_isNaN_of_isInf h, not_isZero_of_isInf h, hs, h]

/-- The root of a negative number is invalid. -/
theorem fsqrt_of_signbit (ha : isNaN F a = false) (hz : isZero F a = false) (hs : signbit F a = true) :
    fsqrt F a = defaultNaN F := by simp [fsqrt, ha, hz, hs]

theorem rintWith_of_isInf (r : Nat → Nat → Nat) (h : isInf F a = true) : rintWith r F a = a := by
  simp [rintWith, not_isNaN_of_isInf h, h]

theorem rintWith_of_isZero (r : Nat → Nat → Nat) (h : isZero F a = true) : rintWith r F a = a := by
  simp [rintWith, not_isNaN_of_isZero h, h]

/-- The invalid products of a fused multiply-add. -/
theorem ffma_zero_inf (ha : isZero F a = true) (hb : isInf F b = true) (hc : isNaN F c = false) :
    ffma F a b c = defaultNaN F := by
  simp [ffma, not_isNaN_of_isZero ha, not_isNaN_of_isInf hb, hc, ha, hb]

theorem ffma_inf_zero (ha : isInf F a = true) (hb : isZero F b = true) (hc : isNaN F c = false) :
    ffma F a b c = defaultNaN F := by
  simp [ffma, not_isNaN_of_isInf ha, not_isNaN_of_isZero hb, hc, ha, hb]

/-- A product with an infinity and a finite `c` or an infinite one. -/
theorem ffma_of_isInf (hi : isInf F a = true ∨ isInf F b = true) (ha : isNaN F a = false) (hb : isNaN F b = false)
    (hza : isZero F a = false) (hzb : isZero F b = false) (hc : isNaN F c = false) :
    ffma F a b c = if isInf F c = true ∧ signbit F c ≠ (signbit F a ^^ signbit F b) then defaultNaN F
      else infinity F (signbit F a ^^ signbit F b) := by
  have hi' : (isInf F a || isInf F b) = true := by simpa using hi
  simp only [ffma, ha, hb, hc, hza, hzb, hi', Bool.and_eq_true, bne_iff_ne, Bool.false_eq_true, Bool.and_false,
    Bool.false_and, Bool.or_self, if_true, if_false]

theorem ffma_of_isInf_right (ha : isFinite F a = true) (hb : isFinite F b = true) (hc : isInf F c = true) :
    ffma F a b c = c := by
  simp [ffma, not_isNaN_of_isFinite ha, not_isNaN_of_isFinite hb, not_isNaN_of_isInf hc, not_isInf_of_isFinite ha,
    not_isInf_of_isFinite hb, hc]

end special

/-! ### Finite operands: one rounding of an exact number of quanta (R103) -/

section finite

variable {F : Fmt} {a b c : Lane F} (ha : isFinite F a = true)

include ha

theorem fadd_of_isFinite (hb : isFinite F b = true) :
    fadd F a b =
      if signedQuanta F a + signedQuanta F b = 0 then zero F (signbit F a && signbit F b)
      else roundLane F (decide (signedQuanta F a + signedQuanta F b < 0)) (signedQuanta F a + signedQuanta F b).natAbs
        1 := by
  simp [fadd, not_isNaN_of_isFinite ha, not_isNaN_of_isFinite hb, not_isInf_of_isFinite ha, not_isInf_of_isFinite hb]

theorem fmul_of_isFinite (hb : isFinite F b = true) :
    fmul F a b = roundLane F (signbit F a ^^ signbit F b) (quanta F a * quanta F b) (2 ^ quantumExp F) := by
  simp [fmul, not_isNaN_of_isFinite ha, not_isNaN_of_isFinite hb, not_isInf_of_isFinite ha, not_isInf_of_isFinite hb]

theorem fdiv_of_isFinite (hb : isFinite F b = true) (hz : isZero F b = false) :
    fdiv F a b = roundLane F (signbit F a ^^ signbit F b) (quanta F a * 2 ^ quantumExp F) (quanta F b) := by
  simp [fdiv, not_isNaN_of_isFinite ha, not_isNaN_of_isFinite hb, not_isInf_of_isFinite ha, not_isInf_of_isFinite hb,
    hz]

theorem ffma_of_isFinite (hb : isFinite F b = true) (hc : isFinite F c = true) :
    ffma F a b c =
      let n := signedQuanta F a * signedQuanta F b + signedQuanta F c * 2 ^ quantumExp F
      if n = 0 then zero F ((signbit F a ^^ signbit F b) && signbit F c)
      else roundLane F (decide (n < 0)) n.natAbs (2 ^ quantumExp F) := by
  simp [ffma, not_isNaN_of_isFinite ha, not_isNaN_of_isFinite hb, not_isNaN_of_isFinite hc, not_isInf_of_isFinite ha,
    not_isInf_of_isFinite hb, not_isInf_of_isFinite hc]

theorem fsqrt_of_isFinite (hz : isZero F a = false) (hs : signbit F a = false) :
    fsqrt F a =
      let n := quanta F a * 2 ^ quantumExp F
      roundLane F false (2 * natSqrt n + if natSqrt n * natSqrt n = n then 0 else 1) 2 := by
  simp [fsqrt, not_isNaN_of_isFinite ha, not_isInf_of_isFinite ha, hz, hs]

theorem rintWith_of_isFinite (r : Nat → Nat → Nat) (hz : isZero F a = false) :
    rintWith r F a = roundLane F (signbit F a) (r (quanta F a) (2 ^ quantumExp F) * 2 ^ quantumExp F) 1 := by
  simp [rintWith, not_isNaN_of_isFinite ha, not_isInf_of_isFinite ha, hz]

end finite

/-- Nothing rounds to nothing (R104). -/
@[simp] theorem roundLane_zero (F : Fmt) (s : Bool) (den : Nat) : roundLane F s 0 den = zero F s := by
  simp [roundLane, roundMagnitude, roundDivEven, zero]

/-- Settles O47: the cases above, and for the two formats the default NaN's pattern. -/
theorem nanRules : Obligations.NanRules := by
  unfold Obligations.NanRules
  refine ⟨by decide, by decide, fun F a b c => ⟨fun ha => ?_, fun ha hb => ?_, ffma_of_isNaN_right,
    fun k hk => quiet_getLsbD a hk, fadd_of_isInf_opposite, fun ha hb hs => ?_, fun ha hb => ?_, fdiv_zero_zero,
    fdiv_inf_inf, fun ha hs hz => fsqrt_of_signbit ha hz hs, fun ha hb hz hc hs => ?_⟩⟩
  · exact ⟨fadd_of_isNaN_left ha b, fsub_of_isNaN_left ha b, fmul_of_isNaN_left ha b, fdiv_of_isNaN_left ha b,
      fsqrt_of_isNaN ha, ffma_of_isNaN_left ha b c, rintWith_of_isNaN ha _, rintWith_of_isNaN ha _⟩
  · exact ⟨fadd_of_isNaN_right ha hb, fsub_of_isNaN_right ha hb, fmul_of_isNaN_right ha hb, fdiv_of_isNaN_right ha hb,
      ffma_of_isNaN_middle ha hb c⟩
  · rw [fsub_eq_fadd (not_isNaN_of_isInf ha) (not_isNaN_of_isInf hb)]
    exact fadd_of_isInf_opposite ha (by simpa using hb) (by simp [hs])
  · exact ⟨fmul_zero_inf ha hb, fmul_inf_zero hb ha, fun hc => ⟨ffma_zero_inf ha hb hc, ffma_inf_zero hb ha hc⟩⟩
  · have ha' := not_isNaN_of_isInf ha
    have hza := not_isZero_of_isInf ha
    have hc' := not_isNaN_of_isInf hc
    rw [ffma_of_isInf (.inl ha) ha' hb hza hz hc', ffma_of_isInf (.inr ha) hb ha' hz hza hc', if_pos ⟨hc, hs⟩,
      if_pos ⟨hc, by rwa [Bool.xor_comm]⟩]
    exact ⟨rfl, rfl⟩

/-! ### Patterns and values (R102) -/

/-- Exponent of the last place `k` and significand `m`: the pattern `k * 2 ^ fracBits + m` has the value `m * 2 ^ k`, a
carry out of the significand included. -/
theorem quantaOfMagnitude_eq {F : Fmt} {k m : Nat} (hk : k = 0 ∨ 2 ^ F.fracBits ≤ m) (hm : m ≤ 2 ^ (F.fracBits + 1)) :
    quantaOfMagnitude F (k * 2 ^ F.fracBits + m) = m * 2 ^ k := by
  have hP : 0 < 2 ^ F.fracBits := Nat.two_pow_pos _
  have hdouble : 2 ^ (F.fracBits + 1) = 2 * 2 ^ F.fracBits := Nat.pow_succ'
  unfold quantaOfMagnitude
  generalize 2 ^ F.fracBits = P at *
  obtain hlt | hge := Nat.lt_or_ge m P
  · obtain rfl : k = 0 := hk.resolve_right (by omega)
    simp [Nat.div_eq_of_lt hlt, Nat.mod_eq_of_lt hlt]
  obtain hlt | heq : m - P < P ∨ m = 2 * P := by omega
  · have hn : k * P + m = (m - P) + (k + 1) * P := by rw [Nat.succ_mul]; omega
    simp [hn, Nat.add_mul_div_right _ _ hP, Nat.div_eq_of_lt hlt, Nat.mod_eq_of_lt hlt, Nat.add_sub_cancel' hge]
  · subst heq
    rw [← Nat.add_mul, Nat.mul_div_cancel _ hP, Nat.mul_mod_left, if_neg (by omega), Nat.add_zero,
      show k + 2 - 1 = k + 1 from rfl, Nat.pow_succ]
    ring

/-- Every pattern has such an exponent and significand. -/
theorem exists_significand (F : Fmt) (n : Nat) :
    ∃ k m, n = k * 2 ^ F.fracBits + m ∧ (k = 0 ∨ 2 ^ F.fracBits ≤ m) ∧ m < 2 ^ (F.fracBits + 1) := by
  have hdouble : 2 ^ (F.fracBits + 1) = 2 * 2 ^ F.fracBits := Nat.pow_succ'
  have hP : 0 < 2 ^ F.fracBits := Nat.two_pow_pos _
  have hmod := Nat.mod_lt n hP
  have hdiv := Nat.div_add_mod' n (2 ^ F.fracBits)
  cases he : n / 2 ^ F.fracBits with
  | zero =>
    rw [he] at hdiv
    exact ⟨0, n, by omega, .inl rfl, by omega⟩
  | succ k =>
    rw [he, Nat.succ_mul] at hdiv
    exact ⟨k, 2 ^ F.fracBits + n % 2 ^ F.fracBits, by omega, .inr (by omega), by omega⟩

/-- The value grows with the pattern: the next pattern is one unit of the last place up. -/
theorem quantaOfMagnitude_strictMono (F : Fmt) : StrictMono (quantaOfMagnitude F) := by
  refine strictMono_nat_of_lt_succ fun n => ?_
  obtain ⟨k, m, rfl, hk, hm⟩ := exists_significand F n
  rw [Nat.add_assoc, quantaOfMagnitude_eq hk hm.le, quantaOfMagnitude_eq (hk.imp_right (Nat.le_add_right_of_le ·)) hm]
  exact Nat.mul_lt_mul_of_pos_right m.lt_succ_self (Nat.two_pow_pos k)

theorem quantaOfMagnitude_zero (F : Fmt) : quantaOfMagnitude F 0 = 0 := by cases F <;> rfl

/-- A lane is a zero exactly when its value is. -/
theorem quanta_eq_zero_iff {F : Fmt} {x : Lane F} : quanta F x = 0 ↔ isZero F x = true := by
  rw [isZero, beq_iff_eq, quanta]
  exact (quantaOfMagnitude_strictMono F).injective.eq_iff' (quantaOfMagnitude_zero F)

/-! ### The ordered predicates (R107) -/

section order

variable {F : Fmt} {a b : Lane F}

/-- The order of the patterns is the order of the values. -/
theorem orderKey_lt_iff : orderKey F a < orderKey F b ↔ signedQuanta F a < signedQuanta F b := by
  have hab := (quantaOfMagnitude_strictMono F).lt_iff_lt (a := magnitude F a) (b := magnitude F b)
  have hba := (quantaOfMagnitude_strictMono F).lt_iff_lt (a := magnitude F b) (b := magnitude F a)
  have ha := (quantaOfMagnitude_strictMono F).lt_iff_lt (a := 0) (b := magnitude F a)
  have hb := (quantaOfMagnitude_strictMono F).lt_iff_lt (a := 0) (b := magnitude F b)
  rw [quantaOfMagnitude_zero] at ha hb
  unfold orderKey signedQuanta quanta
  cases signbit F a <;> cases signbit F b <;> simp only [Bool.false_eq_true, if_true, if_false] <;> omega

theorem orderKey_le_iff : orderKey F a ≤ orderKey F b ↔ signedQuanta F a ≤ signedQuanta F b := by
  rw [← not_lt, orderKey_lt_iff, not_lt]

theorem orderKey_eq_iff : orderKey F a = orderKey F b ↔ signedQuanta F a = signedQuanta F b := by
  rw [le_antisymm_iff, orderKey_le_iff, orderKey_le_iff, ← le_antisymm_iff]

theorem signedQuanta_lt_iff : signedQuanta F a < signedQuanta F b ↔ laneValue F a < laneValue F b := by
  rw [laneValue, laneValue, div_lt_div_iff_of_pos_right (by positivity), Int.cast_lt]

theorem signedQuanta_le_iff : signedQuanta F a ≤ signedQuanta F b ↔ laneValue F a ≤ laneValue F b := by
  rw [← not_lt, signedQuanta_lt_iff, not_lt]

theorem signedQuanta_eq_iff : signedQuanta F a = signedQuanta F b ↔ laneValue F a = laneValue F b := by
  rw [le_antisymm_iff, signedQuanta_le_iff, signedQuanta_le_iff, ← le_antisymm_iff]

theorem flt_iff : flt F a b = true ↔ isNaN F a = false ∧ isNaN F b = false ∧ orderKey F a < orderKey F b := by
  simp [flt, and_assoc]

theorem fle_iff : fle F a b = true ↔ isNaN F a = false ∧ isNaN F b = false ∧ orderKey F a ≤ orderKey F b := by
  simp [fle, and_assoc]

theorem feq_iff : feq F a b = true ↔ isNaN F a = false ∧ isNaN F b = false ∧ orderKey F a = orderKey F b := by
  simp [feq, and_assoc]

theorem fle_of_flt (h : flt F a b = true) : fle F a b = true := by
  obtain ⟨ha, hb, hlt⟩ := flt_iff.mp h
  exact fle_iff.mpr ⟨ha, hb, hlt.le⟩

theorem fle_refl (ha : isNaN F a = false) : fle F a a = true := fle_iff.mpr ⟨ha, ha, le_rfl⟩

/-- Equality with +0 is being a zero, of either sign. -/
theorem feq_cZero (x : Lane F) : feq F x (cZero F) = isZero F x := by
  have hzero : isZero F (cZero F) = true := by cases F <;> decide
  have hkey : orderKey F (cZero F) = 0 := by cases F <;> decide
  rw [Bool.eq_iff_iff, feq_iff, hkey]
  refine ⟨fun ⟨_, _, h⟩ => ?_, fun h => ⟨not_isNaN_of_isZero h, not_isNaN_of_isZero hzero, ?_⟩⟩
  · rw [isZero, beq_iff_eq]
    unfold orderKey at h
    split at h <;> omega
  · rw [isZero, beq_iff_eq] at h
    simp [orderKey, h]

theorem orderKey_infinity (s : Bool) :
    orderKey F (infinity F s) = if s then -(infMagnitude F : Int) else infMagnitude F := by
  rw [orderKey, signbit_infinity, magnitude_infinity]

/-- A finite lane lies strictly between the infinities. -/
theorem orderKey_of_isFinite (h : isFinite F a = true) :
    -(infMagnitude F : Int) < orderKey F a ∧ orderKey F a < infMagnitude F := by
  rw [isFinite, decide_eq_true_eq] at h
  unfold orderKey
  split <;> omega

end order

/-- Settles O48: the keys of the patterns are ordered as the values, with the infinities at the ends. -/
theorem compareIsByValue : Obligations.CompareIsByValue := by
  unfold Obligations.CompareIsByValue
  intro F a b
  have hnan : ∀ s, isNaN F (infinity F s) = false := fun s => not_isNaN_of_isInf (isInf_infinity F s)
  have hpos := infMagnitude_pos F
  refine ⟨fun ha hb => ?_, fun ha => ?_, fun s t => ?_, ?_, fun h => ?_⟩
  · have ha' := not_isNaN_of_isFinite ha
    have hb' := not_isNaN_of_isFinite hb
    simp only [feq_iff, flt_iff, fle_iff, ha', hb', true_and, orderKey_eq_iff, orderKey_lt_iff, orderKey_le_iff,
      signedQuanta_eq_iff, signedQuanta_lt_iff, signedQuanta_le_iff]
  · have ha' := not_isNaN_of_isFinite ha
    obtain ⟨hlo, hhi⟩ := orderKey_of_isFinite ha
    simp only [feq, flt, ha', hnan, orderKey_infinity, Bool.not_false, Bool.true_and, decide_eq_true_eq,
      decide_eq_false_iff_not, Bool.forall_bool, if_true, Bool.false_eq_true, if_false]
    omega
  · cases s <;> cases t <;> simp [feq, flt, fle, hnan, orderKey_infinity, hpos, hpos.ne']
  · rw [Bool.eq_iff_iff, Bool.or_eq_true, fle_iff, flt_iff, feq_iff, le_iff_lt_or_eq]
    tauto
  · obtain h | h := h <;> simp [feq, flt, fle, h]

/-! ### CLAMP and ABS (R118, R123, R135) -/

section clamp

variable {F : Fmt} {v lo hi : Lane F}

/-- The upper bound of CLAMP, for every `v`: MIN gives `hi` unless `v` is less. -/
theorem fle_minLane (hhi : isNaN F hi = false) : fle F (minLane F v hi) hi = true := by
  unfold minLane
  split
  · next h => exact fle_of_flt h
  · exact fle_refl hhi

/-- MAX with a bound is at least the bound. -/
theorem fle_maxLane (hlo : isNaN F lo = false) : fle F lo (maxLane F v lo) = true := by
  unfold maxLane
  split
  · next h => exact fle_of_flt h
  · exact fle_refl hlo

/-- MAX keeps an upper bound that both operands have. -/
theorem maxLane_fle (hv : fle F v hi = true) (hlo : fle F lo hi = true) : fle F (maxLane F v lo) hi = true := by
  unfold maxLane
  split <;> assumption

/-- ABS keeps a lane unless its negation is greater; then the negation of that is not. -/
theorem absLane_absLane (F : Fmt) (v : Lane F) : absLane F (absLane F v) = absLane F v := by
  have hab : ∀ x, absLane F x = if flt F x (flipSign F x) = true then flipSign F x else x := fun x => by
    rw [absLane, maxLane, negLane_eq_flipSign]
  by_cases h : flt F v (flipSign F v) = true
  · have hback : ¬ flt F (flipSign F v) v = true := fun h' => by
      have h1 := (flt_iff.mp h).2.2
      have h2 := (flt_iff.mp h').2.2
      omega
    rw [hab v, if_pos h, hab, flipSign_flipSign, if_neg hback]
  · rw [hab v, if_neg h, hab, if_neg h]

end clamp

/-- Settles O49. -/
theorem clampAndAbs : Obligations.ClampAndAbs := by
  unfold Obligations.ClampAndAbs
  refine ⟨fun F v lo hi hlo hhi hle => ⟨?_, ?_⟩, absLane_absLane⟩
  · exact fle_maxLane (not_isNaN_of_isFinite hlo)
  · exact maxLane_fle (fle_minLane (not_isNaN_of_isFinite hhi)) hle

/-! ### REM on zeros, infinities and NaNs (R122) -/

section rem

variable {F : Fmt} {a b : Lane F}

/-- REM of a number is invalid when its product is. -/
theorem remLane_of_product (ha : isNaN F a = false)
    (h : fmul F (rintZero F (fdiv F a b)) b = defaultNaN F) : remLane F a b = defaultNaN F := by
  rw [remLane, h, fsub_of_isNaN_right ha (isNaN_defaultNaN F), quiet_defaultNaN]

/-- REM of a number is invalid when its quotient is. -/
theorem remLane_of_quotient (ha : isNaN F a = false) (h : fdiv F a b = defaultNaN F) :
    remLane F a b = defaultNaN F := by
  apply remLane_of_product ha
  rw [h, rintZero, rintWith_of_isNaN (isNaN_defaultNaN F), quiet_defaultNaN, fmul_of_isNaN_left (isNaN_defaultNaN F),
    quiet_defaultNaN]

theorem remLane_of_isZero_right (ha : isNaN F a = false) (hb : isZero F b = true) : remLane F a b = defaultNaN F := by
  cases hz : isZero F a
  · apply remLane_of_product ha
    rw [fdiv_of_isZero_right ha hz hb, rintZero, rintWith_of_isInf _ (isInf_infinity F _)]
    exact fmul_inf_zero (isInf_infinity F _) hb
  · exact remLane_of_quotient ha (fdiv_zero_zero hz hb)

theorem remLane_of_isInf_right (ha : isFinite F a = true) (hb : isInf F b = true) : remLane F a b = defaultNaN F := by
  apply remLane_of_product (not_isNaN_of_isFinite ha)
  rw [fdiv_of_isInf_right ha hb, rintZero, rintWith_of_isZero _ (isZero_zero F _)]
  exact fmul_zero_inf (isZero_zero F _) hb

/-- REM of an infinity: ∞/∞, ∞ · 0, or ∞ - ∞. -/
theorem remLane_of_isInf_left (ha : isInf F a = true) (hb : isNaN F b = false) : remLane F a b = defaultNaN F := by
  have ha' := not_isNaN_of_isInf ha
  cases hi : isInf F b
  · cases hz : isZero F b
    · have hprod : fmul F (rintZero F (fdiv F a b)) b = a := by
        rw [fdiv_of_isInf_left ha ((isFinite_iff F b).mpr ⟨hb, hi⟩), rintZero, rintWith_of_isInf _ (isInf_infinity F _),
          fmul_of_isInf_left (isInf_infinity F _) hb hz, signbit_infinity, Bool.xor_assoc, Bool.xor_self,
          Bool.xor_false]
        exact (eq_infinity_of_isInf ha).symm
      rw [remLane, hprod, fsub_eq_fadd ha' ha']
      exact fadd_of_isInf_opposite ha (by simpa using ha) (by simp)
    · exact remLane_of_isZero_right ha' hz
  · exact remLane_of_quotient ha' (fdiv_inf_inf ha hi)

/-- 0 less a zero product of its own sign is +0. -/
theorem remLane_of_isZero_left (ha : isZero F a = true) (hb : isFinite F b = true) (hz : isZero F b = false) :
    remLane F a b = zero F false := by
  have hfin := isFinite_of_isZero (isZero_zero F (signbit F a ^^ signbit F b))
  have ha0 := quanta_eq_zero_iff.mpr ha
  have hprod : fmul F (rintZero F (fdiv F a b)) b = zero F (signbit F a) := by
    rw [fdiv_of_isFinite (isFinite_of_isZero ha) hb hz, ha0, Nat.zero_mul, roundLane_zero, rintZero,
      rintWith_of_isZero _ (isZero_zero F _), fmul_of_isFinite hfin hb, quanta_eq_zero_iff.mpr (isZero_zero F _),
      Nat.zero_mul, roundLane_zero, signbit_zero, Bool.xor_assoc, Bool.xor_self, Bool.xor_false]
  have hself : signedQuanta F a + signedQuanta F (flipSign F a) = 0 := by rw [signedQuanta_flipSign]; omega
  rw [remLane, hprod, ← eq_zero_of_isZero ha, fsub_eq_fadd (not_isNaN_of_isZero ha) (not_isNaN_of_isZero ha),
    fadd_of_isFinite (isFinite_of_isZero ha) (by simpa using isFinite_of_isZero ha), if_pos hself, signbit_flipSign,
    Bool.and_not_self]

end rem

/-- Settles O50. -/
theorem remainderTable : Obligations.RemainderTable := by
  unfold Obligations.RemainderTable
  refine fun F a b => ⟨fun ha => remLane_of_isZero_right (not_isNaN_of_isFinite ha), remLane_of_isInf_right,
    remLane_of_isInf_left, remLane_of_isZero_left, fun ha => fsub_of_isNaN_left ha _, fun ha hb => ?_⟩
  rw [remLane, fdiv_of_isNaN_right ha hb, rintZero, rintWith_of_isNaN (isNaN_quiet b hb), quiet_quiet,
    fmul_of_isNaN_left (isNaN_quiet b hb), quiet_quiet, fsub_of_isNaN_right ha (isNaN_quiet b hb), quiet_quiet]

end Sys2Proof.Machine
end

section
/-!
PROOFS of 40_arith.md, the commands. What a command reads of `CAP` is `fast` and `fused` alone (R100), which is why the
paths agree (R101, R134) and what the fallback is (R217, R234, R239); and each elementwise arithmetic command completes
with its lane function (R110 to R125).
-/

namespace Sys2Proof.Machine

set_option Elab.async false

/-! ### What a command reads of `CAP` (R100) -/

/-- `fast(F)` of R100 as the statements write it out. -/
theorem fast_eq (F : Fmt) (cap : BitVec 3) : fast F cap = if F = .f32 then cap.getLsbD 0 else cap.getLsbD 2 := by
  cases F <;> rfl

theorem fast_zero (F : Fmt) : fast F 0b000#3 = false := by cases F <;> decide

theorem fused_eq (F : Fmt) (cap : BitVec 3) : fused F cap = (fast F cap && cap.getLsbD 2) := rfl

/-- Off the fast path nothing is fused. -/
theorem fused_of_not_fast {F : Fmt} {cap : BitVec 3} (h : fast F cap = false) : fused F cap = false := by
  rw [fused_eq, h, Bool.false_and]

/-- Two values of `CAP` choose the same datapath. -/
structure SamePath (c c' : BitVec 3) : Prop where
  fast_eq : ∀ F, fast F c = fast F c'
  fused_eq : ∀ F, fused F c = fused F c'

/-- `CAP.E` chooses nothing (R21). -/
theorem samePath_of_bits {c c' : BitVec 3} (hB : c.getLsbD 0 = c'.getLsbD 0) (hW : c.getLsbD 2 = c'.getLsbD 2) :
    SamePath c c' := by
  have hfast : ∀ F, fast F c = fast F c' := fun F => by cases F <;> assumption
  exact ⟨hfast, fun F => by rw [fused_eq, fused_eq, hfast, hW]⟩

/-- Another value of `CAP` changes no answer of a command that is the same on both paths, and none but RDCAP's where it
chooses the same datapath. -/
theorem exec_setCap_sameAnswer {i : Instr} {s : State} {c : BitVec 3} (hrd : ∀ F, i ≠ .rdcap F)
    (h : i.pathFree = true ∨ SamePath s.cap c) : SameAnswer (exec i s) (exec i { s with cap := c }) := by
  cases i with
  | rdcap F => exact absurd rfl (hrd F)
  | ldconst F idx => exact sameAnswer_exec_ldconst s _ F idx
  | ldcoef F idx => exact sameAnswer_exec_ldcoef (s := s) (s' := { s with cap := c }) (by cases F <;> rfl) idx
  | bcast F idx => exact sameAnswer_exec_bcast (s := s) (s' := { s with cap := c }) rfl idx
  | rdstat F | hadd F sb => exact sameAnswer_answer1 s _ rfl
  | fold F => exact sameAnswer_answer2 s _ rfl rfl
  | sqr F | sqrt F | abs F | neg F | round F | trunc F | extsign F | mod2pi F => exact sameAnswer_answerUnary rfl rfl
  | add F sb | sub F sb | mul F sb | div F sb | min F sb | max F sb | rem F sb | cmpeq F sb | cmpne F sb | cmplt F sb
  | cmple F sb | cmpgt F sb | cmpge F sb | inbounds F sb | and F sb | or F sb | andnot F sb | xor F sb
  | copysign F sb =>
    exact sameAnswer_answerBinary rfl rfl rfl
  | clamp F sb | select F sb => exact sameAnswer_answerTernary rfl rfl rfl rfl
  | rcp F apx =>
    refine sameAnswer_answerUnary rfl (funext fun a => ?_)
    obtain happ | hpath := h
    · rw [show apx = false by simpa [Instr.pathFree] using happ]
      rfl
    · simp only [rcpLane, hpath.fast_eq]
  | rsqrt F apx =>
    refine sameAnswer_answerUnary rfl (funext fun a => ?_)
    obtain happ | hpath := h
    · rw [show apx = false by simpa [Instr.pathFree] using happ]
      rfl
    · simp only [rsqrtLane, hpath.fast_eq]
  | sin F apx | cos F apx | tan F | tanapprox F | atan F apx =>
    have hpath : SamePath s.cap c := h.resolve_left Bool.false_ne_true
    refine sameAnswer_answerUnary rfl (funext fun a => ?_)
    simp only [sinLane, cosLane, tanLane, tanApproxLane, atanLane, hpath.fast_eq, hpath.fused_eq]
    rfl
  | sincos F apx =>
    have hpath : SamePath s.cap c := h.resolve_left Bool.false_ne_true
    refine sameAnswer_answer2 s _ (congrArg (Lanes.map · (opA s F)) (funext fun a => ?_))
      (congrArg (Lanes.map · (opA s F)) (funext fun a => ?_))
    · simp only [sinLane, hpath.fast_eq, hpath.fused_eq]
      rfl
    · simp only [cosLane, hpath.fast_eq, hpath.fused_eq]
      rfl
  | atan2 F apx sb =>
    have hpath : SamePath s.cap c := h.resolve_left Bool.false_ne_true
    refine sameAnswer_answerBinary rfl rfl (funext fun y => funext fun x => ?_)
    simp only [atan2Lane, hpath.fused_eq]
    rfl

/-- Settles O24: the first clause's commands take nothing of `CAP` that they use, and `CAP.E` chooses no datapath. -/
theorem pathsAgree : Obligations.PathsAgree := by
  unfold Obligations.PathsAgree
  refine ⟨fun i s c hi => exec_setCap_sameAnswer ?_ (.inl hi), fun i s c hrd hB hW =>
    exec_setCap_sameAnswer hrd (.inr (samePath_of_bits hB.symm hW.symm))⟩
  rintro F rfl
  cases hi

/-! ### The fallback path (R100, R217, R234, R239) -/

section fallback

variable {F : Fmt} {s : State} (h : fast F s.cap = false)

include h

theorem tanLane_of_not_fast : tanLane F s.cap (s.krom F) = tanPrecise F false (s.krom F) := by
  funext x
  rw [tanLane, fused_of_not_fast h]

theorem tanApproxLane_of_not_fast : tanApproxLane F s.cap (s.krom F) = tanPrecise F false (s.krom F) := by
  funext x
  simp [tanApproxLane, fused_of_not_fast h, h]

theorem atanLane_of_not_fast (apx : Bool) : atanLane F s.cap (s.krom F) apx = atanOf F false (s.krom F) apx := by
  funext x
  rw [atanLane, fused_of_not_fast h]

theorem atan2Lane_of_not_fast (apx : Bool) : atan2Lane F s.cap (s.krom F) apx = atan2Of F false (s.krom F) apx := by
  funext y x
  rw [atan2Lane, fused_of_not_fast h]

/-- Off the fast path, TAN and TANAPPROX answer as TAN does at `CAP` 000, and ATAN and ATAN2 as they do there. -/
theorem sameAnswer_fallback (apx sb : Bool) :
    SameAnswer (exec (.tan F) s) (exec (.tan F) { s with cap := 0b000#3 }) ∧
      SameAnswer (exec (.tanapprox F) s) (exec (.tan F) { s with cap := 0b000#3 }) ∧
      SameAnswer (exec (.atan F apx) s) (exec (.atan F apx) { s with cap := 0b000#3 }) ∧
      SameAnswer (exec (.atan2 F apx sb) s) (exec (.atan2 F apx sb) { s with cap := 0b000#3 }) := by
  have h0 : fast F ({ s with cap := 0b000#3 } : State).cap = false := fast_zero F
  refine ⟨sameAnswer_answerUnary rfl ?_, sameAnswer_answerUnary rfl ?_, sameAnswer_answerUnary rfl ?_,
    sameAnswer_answerBinary rfl rfl ?_⟩
  · exact (tanLane_of_not_fast h).trans (tanLane_of_not_fast h0).symm
  · exact (tanApproxLane_of_not_fast h).trans (tanLane_of_not_fast h0).symm
  · exact (atanLane_of_not_fast h apx).trans (atanLane_of_not_fast h0 apx).symm
  · exact (atan2Lane_of_not_fast h apx).trans (atan2Lane_of_not_fast h0 apx).symm

end fallback

/-- Settles O25: off the fast path no `MulAdd` is fused, and in F32 the values 001 and 011 fuse none either. -/
theorem fallbackUnfused : Obligations.FallbackUnfused := by
  unfold Obligations.FallbackUnfused
  refine ⟨fun cap => ⟨rfl, rfl, rfl, Bool.and_self _⟩, fun F a b c => ⟨rfl, rfl⟩, fun F s apx sb h => ?_,
    fun F s apx sb h => sameAnswer_fallback h apx sb, fun s apx sb hcap => ?_⟩
  · rw [← tanLane_of_not_fast h, ← atanLane_of_not_fast h, ← atan2Lane_of_not_fast h]
    refine ⟨completes_of_answerUnary rfl, (completes_of_answerUnary rfl).congr (fun j => ?_) fun _ => rfl,
      completes_of_answerUnary rfl, completes_of_answerBinary rfl⟩
    rw [tanApproxLane_of_not_fast h, tanLane_of_not_fast h]
  · have hfused : fused .f32 s.cap = fused .f32 0b000#3 := by
      obtain h | h := hcap <;> rw [h] <;> rfl
    refine ⟨sameAnswer_answerUnary rfl (funext fun x => ?_), sameAnswer_answerUnary rfl (funext fun x => ?_),
      sameAnswer_answerBinary rfl rfl (funext fun y => funext fun x => ?_)⟩
    · rw [tanLane, hfused]
      rfl
    · rw [atanLane, hfused]
      rfl
    · rw [atan2Lane, hfused]
      rfl

/-! ### The elementwise arithmetic (R110 to R125, R152) -/

/-- Settles O28: each is one lane function of A and B. -/
theorem arithBinaryResult : Obligations.ArithBinaryResult := by
  unfold Obligations.ArithBinaryResult
  intro F sb s
  exact ⟨completes_of_answerBinary rfl, completes_of_answerBinary rfl, completes_of_answerBinary rfl,
    completes_of_answerBinary rfl, completes_of_answerBinary (f := minLane F) rfl,
    completes_of_answerBinary (f := maxLane F) rfl, completes_of_answerBinary (f := remLane F) rfl⟩

/-- Settles O29: each is one lane function of A; NEG's exclusive-or flips the sign bit. -/
theorem arithUnaryResult : Obligations.ArithUnaryResult := by
  unfold Obligations.ArithUnaryResult
  intro F s
  refine ⟨completes_of_answerUnary (f := fun a => fmul F a a) rfl, completes_of_answerUnary rfl,
    (completes_of_answerUnary rfl).congr (fun j => ?_) fun _ => rfl, (completes_of_answerUnary rfl).congr (fun j => ?_) fun _ => rfl, completes_of_answerUnary rfl,
    completes_of_answerUnary rfl⟩
  · rw [absLane, maxLane, negLane_eq_flipSign]
  · rw [negLane_eq_flipSign]

/-- A bit of the bitwise select (R107). -/
theorem sel_getLsbD {F : Fmt} (m a b : Lane F) {k : Nat} (hk : k < F.width) :
    (sel F m a b).getLsbD k = if m.getLsbD k = true then a.getLsbD k else b.getLsbD k := by
  simp only [sel, BitVec.getLsbD_or, BitVec.getLsbD_and, BitVec.getLsbD_not, hk, decide_true, Bool.true_and]
  cases m.getLsbD k <;> simp

/-- Settles O30: SELECT bit by bit. -/
theorem ternaryResult : Obligations.TernaryResult := by
  unfold Obligations.TernaryResult
  intro F sb s
  refine ⟨completes_of_answerTernary (f := clampLane F) rfl, _, rfl, sameButResponse_respond _ _ _ _, rfl, rfl, rfl,
    upperZero_busOfLanes _, fun j k hk => ?_⟩
  rw [State.respond_res0, busLane_busOfLanes, Lanes.map₃_get, opA_get, opB_get, opC_get, sel_getLsbD _ _ _ hk]

/-- Settles O31. -/
theorem reciprocalResult : Obligations.ReciprocalResult := by
  unfold Obligations.ReciprocalResult
  intro F apx s
  refine ⟨(completes_of_answerUnary rfl).congr (fun j => ?_) fun _ => rfl,
    (completes_of_answerUnary rfl).congr (fun j => ?_) fun _ => rfl⟩
  · simp only [rcpLane, Bool.and_eq_true]
    rfl
  · simp only [rsqrtLane, Bool.and_eq_true]
    rfl

end Sys2Proof.Machine
end

section
/-!
PROOFS of 40_arith.md, correct rounding (R103, R104). Take a number of quanta `v`, the exponent `k` of its last place and
a significand `m` such that `m * 2 ^ k` is the multiple of `2 ^ k` nearest to `v`, ties to the even `m`. Then the pattern
of `k` and `m`, or the infinity where it is past the largest finite one, is `v` rounded: every lane at or above `v`'s
binade is such a multiple, and every other lane is below the binade. `roundMagnitude` finds such `k` and `m` for a
quotient. From it, the sum and the difference.
-/

namespace Sys2Proof.Machine

set_option Elab.async false

/-! ### The nearest significand -/

/-- `m` is the multiple of `2 ^ k` nearest to `v` quanta, ties to even, and `k` is the exponent of `v`'s last place. -/
structure Nearest (F : Fmt) (v : ℝ) (k m : ℕ) : Prop where
  nonneg : 0 ≤ v
  lt : v < 2 ^ (F.fracBits + 1) * 2 ^ k
  le : k = 0 ∨ 2 ^ F.fracBits * 2 ^ k ≤ v
  near : |v - m * 2 ^ k| ≤ 2 ^ k / 2
  tie : |v - m * 2 ^ k| = 2 ^ k / 2 → Even m

section nearest

variable {F : Fmt} {v : ℝ} {k m : ℕ} (h : Nearest F v k m)

include h

/-- No other multiple of the last place is nearer, and one as near leaves an even significand. -/
theorem Nearest.le_of_dvd {w : ℤ} (hw : (2 : ℤ) ^ k ∣ w) :
    |m * 2 ^ k - v| ≤ |w - v| ∧ (|m * 2 ^ k - v| = |w - v| → (w : ℝ) ≠ m * 2 ^ k → Even m) := by
  obtain ⟨c, rfl⟩ := hw
  have hu : (0 : ℝ) < 2 ^ k := by positivity
  have hnear := h.near
  rw [abs_sub_comm] at hnear
  by_cases hc : c = m
  · have heq : (((2 : ℤ) ^ k * c : ℤ) : ℝ) = m * 2 ^ k := by rw [hc]; push_cast; ring
    rw [heq]
    exact ⟨le_rfl, fun _ hne => absurd rfl hne⟩
  · have hone : (1 : ℝ) ≤ |(c : ℝ) - m| := by
      have : 1 ≤ |c - m| := Int.one_le_abs (sub_ne_zero.mpr hc)
      exact_mod_cast this
    have hgap : (2 : ℝ) ^ k ≤ |(((2 : ℤ) ^ k * c : ℤ) : ℝ) - m * 2 ^ k| := by
      have heq : (((2 : ℤ) ^ k * c : ℤ) : ℝ) - m * 2 ^ k = ((c : ℝ) - m) * 2 ^ k := by push_cast; ring
      rw [heq, abs_mul, abs_of_pos hu]
      exact le_mul_of_one_le_left hu.le hone
    have htri := abs_sub_le (((2 : ℤ) ^ k * c : ℤ) : ℝ) v (m * 2 ^ k)
    rw [abs_sub_comm v] at htri
    refine ⟨by linarith, fun heq _ => h.tie ?_⟩
    rw [abs_sub_comm]
    linarith

/-- No value of a lane is nearer: below the binade of `v` each is farther than the binade's first. -/
theorem Nearest.le_of_lt_or_dvd {w : ℤ} (hw : w < 2 ^ F.fracBits * 2 ^ k ∨ (2 : ℤ) ^ k ∣ w) :
    |m * 2 ^ k - v| ≤ |w - v| ∧ (|m * 2 ^ k - v| = |w - v| → (w : ℝ) ≠ m * 2 ^ k → Even m) := by
  by_cases hdvd : (2 : ℤ) ^ k ∣ w
  · exact h.le_of_dvd hdvd
  · have hlt := hw.resolve_right hdvd
    have hbin : 2 ^ F.fracBits * 2 ^ k ≤ v := h.le.resolve_left fun hk => hdvd (by rw [hk, pow_zero]; exact one_dvd w)
    have hfirst := (h.le_of_dvd (w := 2 ^ F.fracBits * 2 ^ k) (dvd_mul_left _ _)).1
    have hltR : (w : ℝ) < 2 ^ F.fracBits * 2 ^ k := by exact_mod_cast hlt
    push_cast at hfirst
    rw [abs_of_nonpos (by linarith : (2 : ℝ) ^ F.fracBits * 2 ^ k - v ≤ 0)] at hfirst
    rw [abs_of_neg (by linarith : (w : ℝ) - v < 0)]
    exact ⟨by linarith, fun heq => by linarith⟩

/-- The significand, a carry included. -/
theorem Nearest.significand_le : m ≤ 2 ^ (F.fracBits + 1) := by
  by_contra hgt
  have hu : (0 : ℝ) < 2 ^ k := by positivity
  have hm : (2 : ℝ) ^ (F.fracBits + 1) + 1 ≤ m := by exact_mod_cast Nat.lt_of_not_le hgt
  have hmul : ((2 : ℝ) ^ (F.fracBits + 1) + 1) * 2 ^ k ≤ m * 2 ^ k := by gcongr
  have habs := (abs_le.mp h.near).1
  have hlt := h.lt
  linarith

/-- Above the subnormal range the significand has its leading 1. -/
theorem Nearest.le_significand : k = 0 ∨ 2 ^ F.fracBits ≤ m := by
  refine h.le.imp_right fun hle => ?_
  by_contra hlt
  have hu : (0 : ℝ) < 2 ^ k := by positivity
  have hm : (m : ℝ) + 1 ≤ 2 ^ F.fracBits := by exact_mod_cast Nat.lt_of_not_le hlt
  have hmul : ((m : ℝ) + 1) * 2 ^ k ≤ 2 ^ F.fracBits * 2 ^ k := by gcongr
  have habs := (abs_le.mp h.near).2
  linarith

/-- The value of the pattern of `k` and `m`. -/
theorem Nearest.quantaOfMagnitude_eq : quantaOfMagnitude F (k * 2 ^ F.fracBits + m) = m * 2 ^ k :=
  Machine.quantaOfMagnitude_eq h.le_significand h.significand_le

/-- A multiple of the last place is its own rounding. -/
theorem Nearest.eq_of_dvd {z : ℕ} (hz : v = z) (hdvd : 2 ^ k ∣ z) : m * 2 ^ k = z := by
  have hle := (h.le_of_dvd (w := z) (by exact_mod_cast hdvd)).1
  rw [hz, Int.cast_natCast, sub_self, abs_zero] at hle
  have heq := sub_eq_zero.mp (abs_eq_zero.mp (le_antisymm hle (abs_nonneg _)))
  exact_mod_cast heq

end nearest

/-! ### Overflow (R103) -/

/-- The exponent of the last place of the largest finite lanes. -/
def topExp (F : Fmt) : Nat := 2 ^ F.expBits - 3

theorem infMagnitude_eq (F : Fmt) : infMagnitude F = (topExp F + 2) * 2 ^ F.fracBits := by cases F <;> rfl

/-- The overflow bound in quanta: half a unit of the last place past the largest finite lane. -/
theorem overflowBound_mul (F : Fmt) :
    (overflowBound F : ℝ) * 2 ^ quantumExp F = (2 ^ (F.fracBits + 1) - 1 / 2) * 2 ^ topExp F := by
  have hexp : F.bias - F.fracBits - 1 + quantumExp F + 1 = topExp F := by cases F <;> decide
  rw [overflowBound, ← hexp]
  push_cast
  ring

section overflow

variable {F : Fmt} {v : ℝ} {k m : ℕ} (h : Nearest F v k m)

include h

/-- Below the top exponent the pattern is finite and the number below the bound, a carry included. -/
theorem Nearest.below_top (hk : k < topExp F) :
    k * 2 ^ F.fracBits + m < infMagnitude F ∧ v < overflowBound F * 2 ^ quantumExp F := by
  have hm := h.significand_le
  have hpat : (k + 2) * 2 ^ F.fracBits < (topExp F + 2) * 2 ^ F.fracBits :=
    Nat.mul_lt_mul_of_pos_right (by omega) (Nat.two_pow_pos _)
  have hbin : (2 : ℝ) ^ (F.fracBits + 1) * 2 ^ k ≤ 2 ^ F.fracBits * 2 ^ topExp F := by
    rw [← pow_add, ← pow_add]
    exact pow_le_pow_right₀ one_le_two (by omega)
  have hone : (1 : ℝ) ≤ 2 ^ F.fracBits := one_le_pow₀ one_le_two
  have hsig : (2 : ℝ) ^ F.fracBits ≤ 2 ^ (F.fracBits + 1) - 1 / 2 := by rw [pow_succ]; linarith
  rw [infMagnitude_eq, overflowBound_mul]
  rw [Nat.add_mul, ← Nat.pow_succ'] at hpat
  refine ⟨by omega, ?_⟩
  calc v < 2 ^ (F.fracBits + 1) * 2 ^ k := h.lt
    _ ≤ 2 ^ F.fracBits * 2 ^ topExp F := hbin
    _ ≤ (2 ^ (F.fracBits + 1) - 1 / 2) * 2 ^ topExp F := by gcongr

/-- Above the top exponent the pattern is past the finite ones and the number past the bound. -/
theorem Nearest.above_top (hk : topExp F < k) :
    infMagnitude F ≤ k * 2 ^ F.fracBits + m ∧ overflowBound F * 2 ^ quantumExp F ≤ v := by
  have hk0 : k ≠ 0 := by omega
  have hm := h.le_significand.resolve_left hk0
  have hpat : (topExp F + 1) * 2 ^ F.fracBits ≤ k * 2 ^ F.fracBits := Nat.mul_le_mul_right _ hk
  have hbin : (2 : ℝ) ^ (F.fracBits + 1) * 2 ^ topExp F ≤ 2 ^ F.fracBits * 2 ^ k := by
    rw [← pow_add, ← pow_add]
    exact pow_le_pow_right₀ one_le_two (by omega)
  rw [infMagnitude_eq, overflowBound_mul]
  rw [Nat.succ_mul] at hpat
  refine ⟨by rw [Nat.add_mul]; omega, ?_⟩
  calc (2 ^ (F.fracBits + 1) - 1 / 2) * (2 : ℝ) ^ topExp F ≤ 2 ^ (F.fracBits + 1) * 2 ^ topExp F := by
        gcongr; linarith
    _ ≤ 2 ^ F.fracBits * 2 ^ k := hbin
    _ ≤ v := h.le.resolve_left hk0

/-- At the top exponent the bound is the tie between the largest finite significand, which is odd, and the carry. -/
theorem Nearest.at_top (hk : k = topExp F) :
    m < 2 ^ (F.fracBits + 1) ↔ v < overflowBound F * 2 ^ quantumExp F := by
  have hu : (0 : ℝ) < 2 ^ k := by positivity
  obtain ⟨hlo, hhi⟩ := abs_le.mp h.near
  rw [overflowBound_mul, ← hk]
  constructor
  · intro hm
    have hmR : (m : ℝ) + 1 ≤ 2 ^ (F.fracBits + 1) := by exact_mod_cast hm
    have hmul : ((m : ℝ) + 1) * 2 ^ k ≤ 2 ^ (F.fracBits + 1) * 2 ^ k := by gcongr
    refine lt_of_le_of_ne (by linarith) fun heq => ?_
    have heven : Even m := h.tie (by rw [abs_of_nonneg (by linarith)]; linarith)
    have hodd : (m : ℝ) + 1 = 2 ^ (F.fracBits + 1) := mul_right_cancel₀ hu.ne' (by linarith)
    have hodd' : m + 1 = 2 * 2 ^ F.fracBits := by
      rw [← Nat.pow_succ']
      exact_mod_cast hodd
    obtain ⟨i, hi⟩ := heven
    omega
  · intro hv
    refine lt_of_le_of_ne h.significand_le fun heq => ?_
    have hmR : (m : ℝ) = 2 ^ (F.fracBits + 1) := by exact_mod_cast heq
    rw [hmR] at hlo
    linarith

/-- A pattern is that of a finite lane exactly when the number it rounds is below the bound. -/
theorem Nearest.pattern_lt_iff :
    k * 2 ^ F.fracBits + m < infMagnitude F ↔ v < overflowBound F * 2 ^ quantumExp F := by
  obtain hk | hk | hk := Nat.lt_trichotomy k (topExp F)
  · obtain ⟨hpat, hv⟩ := h.below_top hk
    exact iff_of_true hpat hv
  · rw [← h.at_top hk, infMagnitude_eq, hk, Nat.add_mul, Nat.add_lt_add_iff_left, Nat.pow_succ']
  · obtain ⟨hpat, hv⟩ := h.above_top hk
    exact iff_of_false (not_lt.mpr hpat) (not_lt.mpr hv)

end overflow

/-! ### The rounded lane -/

/-- A sign as a factor. -/
def signFactor (s : Bool) : ℤ := if s then -1 else 1

theorem signFactor_mul_self (s : Bool) : signFactor s * signFactor s = 1 := by cases s <;> rfl

theorem signFactor_xor (s t : Bool) : signFactor (s ^^ t) = signFactor s * signFactor t := by
  cases s <;> cases t <;> rfl

theorem signedQuanta_eq (F : Fmt) (x : Lane F) : signedQuanta F x = signFactor (signbit F x) * quanta F x := by
  unfold signedQuanta signFactor
  cases signbit F x <;> simp

theorem abs_signFactor (s : Bool) : |(signFactor s : ℝ)| = 1 := by cases s <;> simp [signFactor]

/-- A signed value is on the grid of every binade, or below it. -/
theorem signed_lt_or_dvd (F : Fmt) (y : Lane F) (s : Bool) (k : ℕ) :
    signFactor s * signedQuanta F y < 2 ^ F.fracBits * 2 ^ k ∨ (2 : ℤ) ^ k ∣ signFactor s * signedQuanta F y := by
  cases s
  · simpa [signFactor] using signedQuanta_lt_or_dvd y k
  · simpa [signFactor] using signedQuanta_lt_or_dvd (flipSign F y) k

section lane

variable {F : Fmt} {v : ℝ} {k m : ℕ} (s : Bool)

/-- The lane that `k` and `m` give for a sign: their pattern, or the infinity. -/
def nearestLane (F : Fmt) (s : Bool) (k m : ℕ) : Lane F := pack F s (min (k * 2 ^ F.fracBits + m) (infMagnitude F))

@[simp] theorem magnitude_nearestLane :
    magnitude F (nearestLane F s k m) = min (k * 2 ^ F.fracBits + m) (infMagnitude F) :=
  magnitude_pack s (lt_of_le_of_lt (Nat.min_le_right _ _) (infMagnitude_lt F))

@[simp] theorem signbit_nearestLane : signbit F (nearestLane F s k m) = s :=
  signbit_pack s (lt_of_le_of_lt (Nat.min_le_right _ _) (infMagnitude_lt F))

variable (h : Nearest F v k m)

include h

theorem Nearest.isFinite (hv : v < overflowBound F * 2 ^ quantumExp F) : isFinite F (nearestLane F s k m) = true := by
  rw [Machine.isFinite, decide_eq_true_eq, magnitude_nearestLane, Nat.min_eq_left (h.pattern_lt_iff.mpr hv).le]
  exact h.pattern_lt_iff.mpr hv

theorem Nearest.quanta_eq (hv : v < overflowBound F * 2 ^ quantumExp F) :
    quanta F (nearestLane F s k m) = m * 2 ^ k := by
  rw [quanta, magnitude_nearestLane, Nat.min_eq_left (h.pattern_lt_iff.mpr hv).le, h.quantaOfMagnitude_eq]

theorem Nearest.eq_infinity (hv : overflowBound F * 2 ^ quantumExp F ≤ v) :
    nearestLane F s k m = infinity F s := by
  rw [nearestLane, Nat.min_eq_right (not_lt.mp fun hlt => absurd (h.pattern_lt_iff.mp hlt) (not_lt.mpr hv)), infinity]

/-- Below the overflow bound the lane is nearest: all distances are scaled by the quantum and turned by the sign. -/
theorem Nearest.laneValue_nearest (hv : v < overflowBound F * 2 ^ quantumExp F) (y : Lane F) :
    |(laneValue F (nearestLane F s k m) : ℝ) - signFactor s * (v / 2 ^ quantumExp F)| ≤
        |(laneValue F y : ℝ) - signFactor s * (v / 2 ^ quantumExp F)| ∧
      (|(laneValue F (nearestLane F s k m) : ℝ) - signFactor s * (v / 2 ^ quantumExp F)| =
          |(laneValue F y : ℝ) - signFactor s * (v / 2 ^ quantumExp F)| →
        laneValue F y ≠ laneValue F (nearestLane F s k m) → magnitude F (nearestLane F s k m) % 2 = 0) := by
  have hq : (0 : ℝ) < 2 ^ quantumExp F := by positivity
  have hss : (signFactor s : ℝ) * signFactor s = 1 := by exact_mod_cast signFactor_mul_self s
  have hdist : ∀ x : Lane F, |(laneValue F x : ℝ) - signFactor s * (v / 2 ^ quantumExp F)| =
      |((signFactor s * signedQuanta F x : ℤ) : ℝ) - v| / 2 ^ quantumExp F := fun x => by
    have hfac : (laneValue F x : ℝ) - signFactor s * (v / 2 ^ quantumExp F) =
        signFactor s * (((signFactor s * signedQuanta F x : ℤ) : ℝ) - v) / 2 ^ quantumExp F := by
      rw [laneValue]
      push_cast
      rw [mul_sub, ← mul_assoc, hss, one_mul]
      ring
    rw [hfac, abs_div, abs_mul, abs_signFactor, one_mul, abs_of_pos hq]
  have hself : signFactor s * signedQuanta F (nearestLane F s k m) = m * 2 ^ k := by
    rw [signedQuanta_eq, signbit_nearestLane, ← mul_assoc, signFactor_mul_self, one_mul, h.quanta_eq s hv]
    push_cast
    rfl
  obtain ⟨hle, htie⟩ := h.le_of_lt_or_dvd (signed_lt_or_dvd F y s k)
  rw [hdist, hdist, hself, div_le_div_iff_of_pos_right hq, div_left_inj' hq.ne']
  push_cast at hle htie ⊢
  refine ⟨hle, fun heq hne => ?_⟩
  have hne' : ((signFactor s * signedQuanta F y : ℤ) : ℝ) ≠ m * 2 ^ k := fun hyv => hne <| signedQuanta_eq_iff.mp <| by
    have hmul : signFactor s * signedQuanta F y = signFactor s * signedQuanta F (nearestLane F s k m) := by
      rw [hself]
      exact_mod_cast hyv
    exact mul_left_cancel₀ (left_ne_zero_of_mul_eq_one (signFactor_mul_self s)) hmul
  have hP : Even (2 ^ F.fracBits) := Nat.even_pow.mpr ⟨even_two, by cases F <;> decide⟩
  rw [magnitude_nearestLane, Nat.min_eq_left (h.pattern_lt_iff.mpr hv).le]
  push_cast at hne'
  exact Nat.even_iff.mp ((hP.mul_left k).add (htie heq hne'))

/-- The lane of `k` and `m` is the number they round, rounded. -/
theorem Nearest.roundsTo : RoundsTo F (signFactor s * (v / 2 ^ quantumExp F)) (nearestLane F s k m) := by
  have hq : (0 : ℝ) < 2 ^ quantumExp F := by positivity
  have hB : (0 : ℝ) < overflowBound F := lt_of_lt_of_le (by positivity) (two_pow_le_overflowBound F)
  have hv0 : 0 ≤ v / 2 ^ quantumExp F := div_nonneg h.nonneg hq.le
  refine ⟨fun hlt => ?_, fun hle => ?_, fun hle => ?_⟩
  · rw [abs_mul, abs_signFactor, one_mul, abs_of_nonneg hv0, div_lt_iff₀ hq] at hlt
    exact ⟨h.isFinite s hlt, fun y _ => h.laneValue_nearest s hlt y⟩
  all_goals
    cases s <;> simp only [signFactor, if_true, Bool.false_eq_true, if_false, Int.cast_one, Int.cast_neg, neg_mul,
      one_mul] at hle
  · exact h.eq_infinity false ((le_div_iff₀ hq).mp hle)
  · linarith
  · linarith
  · exact h.eq_infinity true ((le_div_iff₀ hq).mp (neg_le_neg_iff.mp hle))

end lane

/-! ### `roundLane` (R103) -/

/-- A quotient rounded to the nearest integer, ties to even. -/
theorem roundDivEven_near (K : Type) [Field K] [LinearOrder K] [IsStrictOrderedRing K] (n : ℕ) {d : ℕ} (hd : 0 < d) :
    |(n : K) / d - roundDivEven n d| ≤ 1 / 2 ∧
      (|(n : K) / d - roundDivEven n d| = 1 / 2 → Even (roundDivEven n d)) := by
  have hdK : (0 : K) < d := by exact_mod_cast hd
  have hdiv : (n : K) / d = (n / d : ℕ) + (n % d : ℕ) / d := by
    rw [div_eq_iff hdK.ne', add_mul, div_mul_cancel₀ _ hdK.ne']
    exact_mod_cast (Nat.div_add_mod' n d).symm
  have hr0 : (0 : K) ≤ (n % d : ℕ) / d := by positivity
  have hr1 : ((n % d : ℕ) : K) / d < 1 := (div_lt_one hdK).mpr (by exact_mod_cast Nat.mod_lt n hd)
  simp only [roundDivEven]
  rw [hdiv]
  split
  · next hup =>
    have hhalf : 1 / 2 ≤ ((n % d : ℕ) : K) / d := by
      rw [div_le_div_iff₀ two_pos hdK]
      have : d ≤ 2 * (n % d) := by omega
      exact_mod_cast (by omega : 1 * d ≤ n % d * 2)
    push_cast
    rw [abs_of_nonpos (by linarith)]
    refine ⟨by linarith, fun heq => ?_⟩
    have hnot : ¬ d < 2 * (n % d) := fun hlt => by
      have : 1 / 2 < ((n % d : ℕ) : K) / d := by
        rw [div_lt_div_iff₀ two_pos hdK]
        exact_mod_cast (by omega : 1 * d < n % d * 2)
      linarith
    have hodd := (hup.resolve_left hnot).2
    exact Nat.even_iff.mpr (by omega)
  · next hdown =>
    have hhalf : ((n % d : ℕ) : K) / d ≤ 1 / 2 := by
      rw [div_le_div_iff₀ hdK two_pos]
      exact_mod_cast (by omega : n % d * 2 ≤ 1 * d)
    rw [add_sub_cancel_left, abs_of_nonneg hr0]
    refine ⟨hhalf, fun heq => ?_⟩
    have htie : 2 * (n % d) = d := by
      rw [div_eq_div_iff hdK.ne' two_ne_zero] at heq
      have : n % d * 2 = 1 * d := by exact_mod_cast heq
      omega
    exact Nat.even_iff.mpr (by omega)

/-- The exponent of the last place that `roundMagnitude` takes. -/
def lastPlace (F : Fmt) (num den : ℕ) : ℕ := Nat.log2 (num / den) - F.fracBits

/-- The significand that `roundMagnitude` takes. -/
def significand (F : Fmt) (num den : ℕ) : ℕ := roundDivEven num (den * 2 ^ lastPlace F num den)

theorem roundLane_eq_nearestLane (F : Fmt) (s : Bool) (num den : ℕ) :
    roundLane F s num den = nearestLane F s (lastPlace F num den) (significand F num den) := rfl

/-- They are nearest to the quotient. -/
theorem nearest_roundMagnitude (F : Fmt) (num : ℕ) {den : ℕ} (hden : 0 < den) :
    Nearest F ((num : ℝ) / den) (lastPlace F num den) (significand F num den) := by
  have hdR : (0 : ℝ) < den := by exact_mod_cast hden
  have hu : (0 : ℝ) < 2 ^ lastPlace F num den := by positivity
  obtain ⟨hnear, htie⟩ := roundDivEven_near ℝ num (Nat.mul_pos hden (Nat.two_pow_pos (lastPlace F num den)))
  rw [← significand] at hnear htie
  have hscale : |(num : ℝ) / den - significand F num den * 2 ^ lastPlace F num den| =
      |(num : ℝ) / (den * 2 ^ lastPlace F num den : ℕ) - significand F num den| * 2 ^ lastPlace F num den := by
    conv_rhs => rw [← abs_of_pos hu]
    rw [← abs_mul]
    congr 1
    push_cast
    field_simp
  refine ⟨by positivity, ?_, ?_, ?_, fun heq => htie ?_⟩
  · have hlog : num / den < 2 ^ (F.fracBits + 1) * 2 ^ lastPlace F num den := by
      rw [← Nat.pow_add]
      exact Nat.lt_of_lt_of_le Nat.lt_log2_self (Nat.pow_le_pow_right two_pos (by rw [lastPlace]; omega))
    rw [div_lt_iff₀ hdR]
    exact_mod_cast (Nat.div_lt_iff_lt_mul hden).mp hlog
  · by_cases hsub : Nat.log2 (num / den) ≤ F.fracBits
    · exact .inl (Nat.sub_eq_zero_of_le hsub)
    · have hpos : num / den ≠ 0 := fun h0 => hsub (by rw [h0]; exact Nat.zero_le _)
      have hlog : 2 ^ F.fracBits * 2 ^ lastPlace F num den ≤ num / den := by
        rw [← Nat.pow_add, lastPlace, Nat.add_sub_cancel' (Nat.le_of_not_le hsub)]
        exact Nat.log2_self_le hpos
      right
      rw [le_div_iff₀ hdR]
      exact_mod_cast (Nat.le_div_iff_mul_le hden).mp hlog
  · rw [hscale]
    have := mul_le_mul_of_nonneg_right hnear hu.le
    linarith
  · rw [hscale] at heq
    exact mul_right_cancel₀ hu.ne' (by linarith)

/-- `roundLane` is correct rounding (R103). -/
theorem roundLane_roundsTo (F : Fmt) (s : Bool) (num : ℕ) {den : ℕ} (hden : 0 < den) :
    RoundsTo F (signFactor s * ((num : ℝ) / den / 2 ^ quantumExp F)) (roundLane F s num den) := by
  rw [roundLane_eq_nearestLane]
  exact (nearest_roundMagnitude F num hden).roundsTo s

@[simp] theorem signbit_roundLane (F : Fmt) (s : Bool) (num den : ℕ) : signbit F (roundLane F s num den) = s := by
  rw [roundLane_eq_nearestLane, signbit_nearestLane]

/-- A signed number of quanta over `den`, rounded; a zero may have either sign. -/
theorem roundLane_int_roundsTo (F : Fmt) (n : ℤ) (s : Bool) {den : ℕ} (hden : 0 < den) :
    RoundsTo F ((n : ℝ) / den / 2 ^ quantumExp F)
      (if n = 0 then zero F s else roundLane F (decide (n < 0)) n.natAbs den) := by
  split
  · next h =>
    rw [← roundLane_zero F s den, h]
    simpa using roundLane_roundsTo F s 0 hden
  · have hn : (n : ℝ) = signFactor (decide (n < 0)) * (n.natAbs : ℕ) := by
      rw [signFactor, Nat.cast_natAbs]
      split
      · next h => rw [abs_of_neg (by simpa using h)]; simp
      · next h => rw [abs_of_nonneg (by simpa using h)]; simp
    rw [hn, mul_div_assoc, mul_div_assoc]
    exact roundLane_roundsTo F _ _ hden

/-! ### Numbers that are lanes (R103) -/

/-- The value of a lane is its own rounding. -/
theorem exists_nearest (F : Fmt) (x : Lane F) :
    ∃ k m, magnitude F x = k * 2 ^ F.fracBits + m ∧ Nearest F (quanta F x) k m := by
  obtain ⟨k, m, hmag, hk, hm⟩ := exists_significand F (magnitude F x)
  have hu : (0 : ℝ) < 2 ^ k := by positivity
  have hq : (quanta F x : ℝ) = m * 2 ^ k := by
    rw [quanta, hmag, quantaOfMagnitude_eq hk hm.le]
    push_cast
    rfl
  have hdist : |(quanta F x : ℝ) - m * 2 ^ k| = 0 := by rw [hq, sub_self, abs_zero]
  refine ⟨k, m, hmag, by positivity, ?_, hk.imp_right fun hle => ?_, ?_, fun heq => ?_⟩
  · rw [hq]
    have : (m : ℝ) < 2 ^ (F.fracBits + 1) := by exact_mod_cast hm
    gcongr
  · rw [hq]
    have : (2 : ℝ) ^ F.fracBits ≤ m := by exact_mod_cast hle
    gcongr
  · rw [hdist]
    positivity
  · rw [hdist] at heq
    linarith

/-- The values of the finite lanes are below the overflow bound. -/
theorem quanta_lt_overflow {F : Fmt} {x : Lane F} (hx : isFinite F x = true) :
    (quanta F x : ℝ) < overflowBound F * 2 ^ quantumExp F := by
  obtain ⟨k, m, hmag, h⟩ := exists_nearest F x
  rw [isFinite, decide_eq_true_eq, hmag] at hx
  exact h.pattern_lt_iff.mp hx

/-- A whole number of its own last places is rounded to itself. -/
theorem roundLane_of_dvd {F : Fmt} (s : Bool) {z : ℕ} (hdvd : 2 ^ lastPlace F z 1 ∣ z)
    (hz : (z : ℝ) < overflowBound F * 2 ^ quantumExp F) :
    isFinite F (roundLane F s z 1) = true ∧ quanta F (roundLane F s z 1) = z := by
  have h := nearest_roundMagnitude F z one_pos
  rw [Nat.cast_one, div_one] at h
  rw [roundLane_eq_nearestLane]
  exact ⟨h.isFinite s hz, (h.quanta_eq s hz).trans (h.eq_of_dvd rfl hdvd)⟩

/-- The value of a lane is a whole number of its last places. -/
theorem lastPlace_dvd_quanta (F : Fmt) (x : Lane F) : 2 ^ lastPlace F (quanta F x) 1 ∣ quanta F x := by
  obtain hlt | hdvd := quanta_lt_or_dvd x (lastPlace F (quanta F x) 1)
  · have hle := (nearest_roundMagnitude F (quanta F x) one_pos).le
    rw [Nat.cast_one, div_one] at hle
    have hk := hle.resolve_right fun hge => absurd hlt (not_lt.mpr (by exact_mod_cast hge))
    rw [hk, pow_zero]
    exact one_dvd _
  · exact hdvd

/-- The value of a finite lane is rounded to its pattern. -/
theorem roundLane_quanta {F : Fmt} {x : Lane F} (hx : isFinite F x = true) (s : Bool) :
    roundLane F s (quanta F x) 1 = pack F s (magnitude F x) := by
  obtain ⟨-, hq⟩ := roundLane_of_dvd s (lastPlace_dvd_quanta F x) (quanta_lt_overflow hx)
  refine lane_ext ?_ ?_
  · rw [signbit_roundLane, signbit_pack s (magnitude_lt F x)]
  · rw [magnitude_pack s (magnitude_lt F x)]
    exact (quantaOfMagnitude_strictMono F).injective hq

/-! ### The primitives on finite lanes (R107) -/

section primitives

variable {F : Fmt} {a b c : Lane F}

theorem laneValue_eq (F : Fmt) (x : Lane F) :
    (laneValue F x : ℝ) = signFactor (signbit F x) * ((quanta F x : ℝ) / 2 ^ quantumExp F) := by
  rw [laneValue, signedQuanta_eq]
  push_cast
  ring

theorem fadd_roundsTo (ha : isFinite F a = true) (hb : isFinite F b = true) :
    RoundsTo F ((laneValue F a + laneValue F b : ℚ) : ℝ) (fadd F a b) := by
  have h := roundLane_int_roundsTo F (signedQuanta F a + signedQuanta F b) (signbit F a && signbit F b) one_pos
  rw [← fadd_of_isFinite ha hb] at h
  convert h using 1
  rw [laneValue, laneValue]
  push_cast
  ring

theorem laneValue_flipSign (x : Lane F) : laneValue F (flipSign F x) = -laneValue F x := by
  rw [laneValue, laneValue, signedQuanta_flipSign]
  push_cast
  ring

theorem fadd_exact_zero (ha : isFinite F a = true) (hb : isFinite F b = true) (h : laneValue F a + laneValue F b = 0) :
    fadd F a b = zero F (signbit F a && signbit F b) := by
  rw [fadd_of_isFinite ha hb, if_pos]
  rw [laneValue, laneValue, ← add_div, div_eq_zero_iff] at h
  exact_mod_cast h.resolve_right (by positivity)

end primitives

/-- Settles O42: the difference is the sum with the second lane's sign flipped. -/
theorem sumRounded : Obligations.SumRounded := by
  unfold Obligations.SumRounded
  refine fun F a b => ⟨fun ha hb => ?_, fun ha hb => ?_, fun ha hb hs => ?_, fun ha hb hs => ?_⟩
  · have hb' : isFinite F (flipSign F b) = true := by rwa [isFinite_flipSign]
    have hsub := fsub_eq_fadd (not_isNaN_of_isFinite ha) (not_isNaN_of_isFinite hb)
    have hneg : laneValue F a - laneValue F b = laneValue F a + laneValue F (flipSign F b) := by
      rw [laneValue_flipSign, sub_eq_add_neg]
    rw [hsub, hneg]
    refine ⟨fadd_roundsTo ha hb, fadd_roundsTo ha hb', fadd_exact_zero ha hb, fun h => ?_⟩
    rw [fadd_exact_zero ha hb' h, signbit_flipSign]
  · have ha' := not_isNaN_of_isInf ha
    have hb' := not_isNaN_of_isFinite hb
    have hnot : ∀ {p : Prop}, isInf F b = true → p := fun h => absurd h (by simp [not_isInf_of_isFinite hb])
    rw [fsub_eq_fadd ha' hb', fsub_eq_fadd hb' ha']
    exact ⟨fadd_of_isInf_left ha hb' hnot, fadd_of_isInf_right hb ha,
      fadd_of_isInf_left ha (by simpa using hb') fun h => hnot (by simpa using h),
      fadd_of_isInf_right hb (by simpa using ha)⟩
  · exact fadd_of_isInf_left ha (not_isNaN_of_isInf hb) fun _ => hs
  · rw [fsub_eq_fadd (not_isNaN_of_isInf ha) (not_isNaN_of_isInf hb)]
    refine fadd_of_isInf_left ha (by simpa using not_isNaN_of_isInf hb) fun _ => ?_
    rw [signbit_flipSign]
    exact Bool.eq_not.mpr hs

end Sys2Proof.Machine
end

section
/-!
PROOFS of 40_arith.md, the products, the fused sum, the root and the two roundings to an integral value, on finite lanes
(R103, R104, R107): each is one rounding of an exact number of quanta, or, for a root that is not exact, of the midpoint of
the two integers it lies between. A rounding to an integral value is exact, because that value is a lane.
-/

namespace Sys2Proof.Machine

set_option Elab.async false

/-! ### Product and quotient -/

section product

variable {F : Fmt} {a b : Lane F}

theorem fmul_roundsTo (ha : isFinite F a = true) (hb : isFinite F b = true) :
    RoundsTo F ((laneValue F a * laneValue F b : ℚ) : ℝ) (fmul F a b) := by
  rw [fmul_of_isFinite ha hb]
  convert roundLane_roundsTo F (signbit F a ^^ signbit F b) (quanta F a * quanta F b) (Nat.two_pow_pos (quantumExp F))
    using 1
  rw [Rat.cast_mul, laneValue_eq, laneValue_eq, signFactor_xor]
  push_cast
  ring

theorem quanta_pos (hz : isZero F b = false) : 0 < quanta F b :=
  Nat.pos_of_ne_zero fun h => by simp [quanta_eq_zero_iff.mp h] at hz

theorem fdiv_roundsTo (ha : isFinite F a = true) (hb : isFinite F b = true) (hz : isZero F b = false) :
    RoundsTo F ((laneValue F a / laneValue F b : ℚ) : ℝ) (fdiv F a b) := by
  have hpos : (0 : ℝ) < quanta F b := by exact_mod_cast quanta_pos hz
  have hsb : (signFactor (signbit F b) : ℝ)⁻¹ = signFactor (signbit F b) := by
    cases signbit F b <;> simp [signFactor, inv_neg]
  rw [fdiv_of_isFinite ha hb hz]
  convert roundLane_roundsTo F (signbit F a ^^ signbit F b) (quanta F a * 2 ^ quantumExp F) (quanta_pos hz) using 1
  rw [Rat.cast_div, laneValue_eq, laneValue_eq, signFactor_xor, mul_div_mul_comm, div_eq_mul_inv (_ : ℝ), hsb]
  push_cast
  field_simp

end product

/-- Settles O43. -/
theorem productRounded : Obligations.ProductRounded := by
  unfold Obligations.ProductRounded
  refine fun F a b => ⟨fun ha hb => ⟨fmul_roundsTo ha hb, ?_, fun hz => ⟨fdiv_roundsTo ha hb hz, ?_⟩⟩,
    fun ha hb hz => ⟨fmul_of_isInf_left ha hb hz, ?_⟩, fun ha hb => ⟨fdiv_of_isInf_left ha hb, ?_⟩,
    fdiv_of_isZero_right⟩
  · rw [fmul_of_isFinite ha hb, signbit_roundLane]
  · rw [fdiv_of_isFinite ha hb hz, signbit_roundLane]
  · rw [fmul_of_isInf_right hb hz ha, Bool.xor_comm]
  · rw [fdiv_of_isInf_right hb ha, Bool.xor_comm]

/-! ### The fused multiply-add -/

section fused

variable {F : Fmt} {a b c : Lane F}

/-- The exact sum, in quanta of `2 ^ -(2 * quantumExp)`. -/
theorem laneValue_mul_add (F : Fmt) (a b c : Lane F) :
    laneValue F a * laneValue F b + laneValue F c =
      ((signedQuanta F a * signedQuanta F b + signedQuanta F c * 2 ^ quantumExp F : ℤ) : ℚ) / 2 ^ quantumExp F /
        2 ^ quantumExp F := by
  simp only [laneValue]
  push_cast
  field_simp

theorem ffma_roundsTo (ha : isFinite F a = true) (hb : isFinite F b = true) (hc : isFinite F c = true) :
    RoundsTo F ((laneValue F a * laneValue F b + laneValue F c : ℚ) : ℝ) (ffma F a b c) := by
  rw [ffma_of_isFinite ha hb hc, laneValue_mul_add]
  convert roundLane_int_roundsTo F _ ((signbit F a ^^ signbit F b) && signbit F c) (Nat.two_pow_pos (quantumExp F))
    using 1
  push_cast
  rfl

theorem ffma_exact_zero (ha : isFinite F a = true) (hb : isFinite F b = true) (hc : isFinite F c = true)
    (h : laneValue F a * laneValue F b + laneValue F c = 0) :
    ffma F a b c = zero F ((signbit F a ^^ signbit F b) && signbit F c) := by
  rw [laneValue_mul_add, div_div, div_eq_zero_iff] at h
  rw [ffma_of_isFinite ha hb hc]
  exact if_pos (by exact_mod_cast h.resolve_right (by positivity))

/-- A valid product with an infinity. -/
theorem ffma_of_isInf_valid (hi : isInf F a = true ∨ isInf F b = true) (ha : isNaN F a = false) (hb : isNaN F b = false)
    (hza : isZero F a = false) (hzb : isZero F b = false) (hc : isNaN F c = false)
    (hs : isInf F c = true → signbit F c = (signbit F a ^^ signbit F b)) :
    ffma F a b c = infinity F (signbit F a ^^ signbit F b) := by
  rw [ffma_of_isInf hi ha hb hza hzb hc]
  exact if_neg fun h => h.2 (hs h.1)

end fused

/-- Settles O44. -/
theorem fusedRounded : Obligations.FusedRounded := by
  unfold Obligations.FusedRounded
  refine fun F a b c => ⟨fun ha hb hc => ⟨ffma_roundsTo ha hb hc, ffma_exact_zero ha hb hc⟩, fun ha hb hz hc hs => ?_,
    ffma_of_isInf_right⟩
  have ha' := not_isNaN_of_isInf ha
  have hza := not_isZero_of_isInf ha
  refine ⟨ffma_of_isInf_valid (.inl ha) ha' hb hza hz hc hs, ?_⟩
  rw [Bool.xor_comm] at hs ⊢
  exact ffma_of_isInf_valid (.inr ha) hb ha' hz hza hc hs

/-! ### The square root -/

/-- Newton's step from above the root stays above it: the mean of `x` and `n / x` is at least the root. -/
theorem newton_step_above {n x : ℕ} (hx : 0 < x) : n < ((x + n / x) / 2 + 1) * ((x + n / x) / 2 + 1) := by
  have hn : n < x * (n / x + 1) := Nat.lt_mul_div_succ n hx
  have hmean : x + n / x + 1 ≤ 2 * ((x + n / x) / 2 + 1) := by omega
  generalize (x + n / x) / 2 + 1 = y at *
  generalize n / x = t at *
  nlinarith [Nat.mul_le_mul hmean hmean, sq_nonneg ((x : ℤ) - (t + 1))]

/-- From a start above the root, with as many steps as the start is large, Newton's steps end at the integer root. -/
theorem sqrtSteps_spec (n : ℕ) : ∀ fuel x : ℕ, x ≤ fuel → n < (x + 1) * (x + 1) →
    sqrtSteps n fuel x * sqrtSteps n fuel x ≤ n ∧ n < (sqrtSteps n fuel x + 1) * (sqrtSteps n fuel x + 1) := by
  intro fuel
  induction fuel with
  | zero =>
    intro x hx hn
    obtain rfl : x = 0 := Nat.le_zero.mp hx
    exact ⟨Nat.zero_le _, hn⟩
  | succ fuel ih =>
    intro x hx hn
    simp only [sqrtSteps]
    split
    · next hlt => exact ih _ (by omega) (newton_step_above (Nat.zero_lt_of_lt hlt))
    · next hge =>
      refine ⟨?_, hn⟩
      obtain rfl | hpos := Nat.eq_zero_or_pos x
      · exact Nat.zero_le _
      · exact (Nat.le_div_iff_mul_le hpos).mp (by omega)

/-- `natSqrt` is the integer square root. -/
theorem natSqrt_spec (n : ℕ) : natSqrt n * natSqrt n ≤ n ∧ n < (natSqrt n + 1) * (natSqrt n + 1) := by
  refine sqrtSteps_spec n _ _ le_rfl ?_
  have hlog : n < 2 ^ (Nat.log2 n / 2 + 1) * 2 ^ (Nat.log2 n / 2 + 1) := by
    rw [← Nat.pow_add]
    exact Nat.lt_of_lt_of_le Nat.lt_log2_self (Nat.pow_le_pow_right two_pos (by omega))
  exact hlog.trans_le (Nat.mul_le_mul (Nat.le_succ _) (Nat.le_succ _))

/-- What rounds the midpoint of two integers past the subnormal range rounds every number between them: the ties there
are integers. -/
theorem Nearest.of_midpoint {F : Fmt} {v : ℝ} {r k m : ℕ} (h : Nearest F ((r : ℝ) + 1 / 2) k m)
    (hr : 2 ^ (F.fracBits + 1) ≤ r) (hlo : (r : ℝ) < v) (hhi : v < r + 1) : Nearest F v k m := by
  have hlt : r < 2 ^ (F.fracBits + 1) * 2 ^ k := by
    have : (r : ℝ) < 2 ^ (F.fracBits + 1) * 2 ^ k := by linarith [h.lt]
    exact_mod_cast this
  have hk : k ≠ 0 := fun h0 => by rw [h0, pow_zero] at hlt; omega
  have hbin : 2 ^ F.fracBits * 2 ^ k ≤ r := by
    have : ((2 ^ F.fracBits * 2 ^ k : ℕ) : ℝ) < r + 1 := by push_cast; linarith [h.le.resolve_left hk]
    exact Nat.lt_succ_iff.mp (by exact_mod_cast this)
  obtain ⟨i, hi⟩ : 2 ∣ 2 ^ k := dvd_pow_self 2 hk
  have hiR : (2 : ℝ) ^ k = 2 * i := by exact_mod_cast hi
  have hnear : |(v : ℝ) - m * 2 ^ k| < 2 ^ k / 2 := by
    obtain ⟨hnlo, hnhi⟩ := abs_le.mp h.near
    have hlo' : m * (2 * i) < r + 1 + i := by
      have : (m : ℝ) * (2 * i) < r + 1 + i := by rw [← hiR]; linarith
      exact_mod_cast this
    have hhi' : r < m * (2 * i) + i := by
      have : (r : ℝ) < m * (2 * i) + i := by rw [← hiR]; linarith
      exact_mod_cast this
    have hloR : (m : ℝ) * 2 ^ k ≤ r + i := by rw [hiR]; exact_mod_cast Nat.lt_succ_iff.mp (by omega)
    have hhiR : (r : ℝ) + 1 ≤ m * 2 ^ k + i := by rw [hiR]; exact_mod_cast hhi'
    rw [abs_lt]
    constructor <;> linarith
  refine ⟨by linarith [Nat.cast_nonneg (α := ℝ) r], ?_, .inr ?_, hnear.le, fun heq => absurd heq hnear.ne⟩
  · exact hhi.trans_le (by exact_mod_cast hlt)
  · exact le_trans (by exact_mod_cast hbin) hlo.le

section root

variable {F : Fmt} {a : Lane F}

/-- The root of `n` quanta, for `n` past the subnormal range: the integer root where it is exact, else the midpoint. -/
theorem nearest_sqrt (F : Fmt) {n : ℕ} (hn : 2 ^ quantumExp F ≤ n) :
    let num := 2 * natSqrt n + if natSqrt n * natSqrt n = n then 0 else 1
    Nearest F (Real.sqrt n) (lastPlace F num 2) (significand F num 2) := by
  intro num
  have h := nearest_roundMagnitude F num two_pos
  obtain ⟨hlo, hhi⟩ := natSqrt_spec n
  have hnum : num = 2 * natSqrt n + if natSqrt n * natSqrt n = n then 0 else 1 := rfl
  split at hnum
  · next hsq =>
    have hroot : Real.sqrt n = natSqrt n := by
      rw [← hsq]
      push_cast
      rw [hsq]
      exact Real.sqrt_mul_self (Nat.cast_nonneg _)
    have hhalf : ((num : ℕ) : ℝ) / ((2 : ℕ) : ℝ) = natSqrt n := by rw [hnum]; push_cast; ring
    rwa [hroot, ← hhalf]
  · next hsq =>
    have hhalf : ((num : ℕ) : ℝ) / ((2 : ℕ) : ℝ) = natSqrt n + 1 / 2 := by rw [hnum]; push_cast; ring
    rw [hhalf] at h
    refine h.of_midpoint ?_ ?_ ?_
    · have hexp : 2 * (F.fracBits + 1) ≤ quantumExp F := by cases F <;> decide
      have hsmall : 2 ^ (F.fracBits + 1) * 2 ^ (F.fracBits + 1) ≤ n := by
        rw [← Nat.pow_add, ← two_mul]
        exact (Nat.pow_le_pow_right two_pos hexp).trans hn
      by_contra hlt
      have hle : natSqrt n + 1 ≤ 2 ^ (F.fracBits + 1) := Nat.lt_of_not_le hlt
      exact absurd (hhi.trans_le ((Nat.mul_le_mul hle hle).trans hsmall)) (lt_irrefl n)
    · rw [Real.lt_sqrt (Nat.cast_nonneg _), sq]
      exact_mod_cast lt_of_le_of_ne hlo hsq
    · rw [Real.sqrt_lt' (by positivity), sq]
      exact_mod_cast hhi

theorem fsqrt_roundsTo (ha : isFinite F a = true) (hz : isZero F a = false) (hs : signbit F a = false) :
    RoundsTo F (Real.sqrt ((laneValue F a : ℚ) : ℝ)) (fsqrt F a) := by
  have hn : 2 ^ quantumExp F ≤ quanta F a * 2 ^ quantumExp F := Nat.le_mul_of_pos_left _ (quanta_pos hz)
  have hq : (0 : ℝ) < 2 ^ quantumExp F := by positivity
  have hroot : Real.sqrt ((laneValue F a : ℚ) : ℝ) =
      signFactor false * (Real.sqrt (quanta F a * 2 ^ quantumExp F : ℕ) / 2 ^ quantumExp F) := by
    rw [laneValue_eq, hs, signFactor, if_neg Bool.false_ne_true, Int.cast_one, one_mul, one_mul, eq_div_iff hq.ne']
    calc Real.sqrt (quanta F a / 2 ^ quantumExp F) * 2 ^ quantumExp F
        = Real.sqrt (quanta F a / 2 ^ quantumExp F) * Real.sqrt ((2 ^ quantumExp F) ^ 2) := by rw [Real.sqrt_sq hq.le]
      _ = Real.sqrt (quanta F a / 2 ^ quantumExp F * (2 ^ quantumExp F) ^ 2) := (Real.sqrt_mul (by positivity) _).symm
      _ = Real.sqrt (quanta F a * 2 ^ quantumExp F : ℕ) := by
        push_cast
        congr 1
        field_simp
  rw [fsqrt_of_isFinite ha hz hs, hroot]
  simp only [roundLane_eq_nearestLane]
  exact (nearest_sqrt F hn).roundsTo false

end root

/-- Settles O45. -/
theorem rootRounded : Obligations.RootRounded := by
  unfold Obligations.RootRounded
  refine fun F a => ⟨fun ha h => ?_, fsqrt_of_isZero, fsqrt_of_isInf⟩
  cases hz : isZero F a
  · exact fsqrt_roundsTo ha hz (h.resolve_right (by simp [hz]))
  · have hzero := laneValue_of_magnitude_eq_zero (by simpa [isZero] using hz)
    have hround := roundLane_roundsTo F (signbit F a) 0 one_pos
    rw [roundLane_zero, ← eq_zero_of_isZero hz] at hround
    simpa [fsqrt_of_isZero hz, hzero] using hround

/-! ### The two roundings to an integral value -/

section integral

variable {F : Fmt} {a : Lane F}

theorem roundDivEven_mul (m : ℕ) {d : ℕ} (hd : 0 < d) : roundDivEven (m * d) d = m := by
  simp [roundDivEven, Nat.mul_div_cancel _ hd, hd.ne]

theorem roundDivEven_le {n m d : ℕ} (hd : 0 < d) (h : n ≤ m * d) : roundDivEven n d ≤ m := by
  obtain rfl | hlt := Nat.eq_or_lt_of_le h
  · rw [roundDivEven_mul m hd]
  · have hdiv : n / d < m := (Nat.div_lt_iff_lt_mul hd).mpr hlt
    simp only [roundDivEven]
    split <;> omega

/-- What TRUNC's and ROUND's quotients have in common: whole numbers are kept, and nothing is rounded past one. -/
structure RoundsToWhole (r : ℕ → ℕ → ℕ) : Prop where
  exact : ∀ m d, 0 < d → r (m * d) d = m
  le : ∀ n m d, 0 < d → n ≤ m * d → r n d ≤ m

theorem roundsToWhole_even : RoundsToWhole roundDivEven :=
  ⟨fun m _ hd => roundDivEven_mul m hd, fun _ _ _ hd h => roundDivEven_le hd h⟩

theorem roundsToWhole_zero : RoundsToWhole (· / ·) :=
  ⟨fun _ _ hd => Nat.mul_div_cancel _ hd, fun _ _ _ hd h => (Nat.div_le_iff_le_mul hd).mpr (by omega)⟩

theorem overflow_large (F : Fmt) : (2 : ℝ) ^ F.fracBits * 2 ^ quantumExp F < overflowBound F * 2 ^ quantumExp F := by
  have hlt : (2 : ℝ) ^ F.fracBits < 2 ^ (F.fracBits + 1) := pow_lt_pow_right₀ one_lt_two (Nat.lt_succ_self _)
  have hbound := two_pow_le_overflowBound F
  gcongr
  linarith

theorem lastPlace_le {z e : ℕ} (h : z ≤ 2 ^ F.fracBits * 2 ^ e) : lastPlace F z 1 ≤ e := by
  have hle := (nearest_roundMagnitude F z one_pos).le
  rw [Nat.cast_one, div_one] at hle
  obtain h0 | hge := hle
  · exact h0 ▸ Nat.zero_le e
  · have hmul : 2 ^ F.fracBits * 2 ^ lastPlace F z 1 ≤ 2 ^ F.fracBits * 2 ^ e := le_trans (by exact_mod_cast hge) h
    exact (Nat.pow_le_pow_iff_right one_lt_two).mp (Nat.le_of_mul_le_mul_left hmul (Nat.two_pow_pos _))

/-- The whole number is a lane: at or above `2 ^ fracBits` every lane is a whole number, and below it every whole number
is a lane. -/
theorem rintWith_spec {r : ℕ → ℕ → ℕ} (hr : RoundsToWhole r) (ha : isFinite F a = true) :
    isFinite F (rintWith r F a) = true ∧ signbit F (rintWith r F a) = signbit F a ∧
      quanta F (rintWith r F a) = r (quanta F a) (2 ^ quantumExp F) * 2 ^ quantumExp F := by
  have hone : 0 < 2 ^ quantumExp F := Nat.two_pow_pos _
  cases hz : isZero F a
  · rw [rintWith_of_isFinite ha r hz]
    obtain hlt | ⟨c, hc⟩ := quanta_lt_or_dvd a (quantumExp F)
    · have hle := Nat.mul_le_mul_right (2 ^ quantumExp F) (hr.le _ _ _ hone hlt.le)
      have hbound := (Nat.cast_le (α := ℝ)).mpr hle
      push_cast at hbound
      have h := roundLane_of_dvd (signbit F a) (dvd_mul_of_dvd_right (Nat.pow_dvd_pow 2 (lastPlace_le hle)) _)
        (by push_cast; exact hbound.trans_lt (overflow_large F))
      exact ⟨h.1, signbit_roundLane _ _ _ _, h.2⟩
    · have hwhole : r (quanta F a) (2 ^ quantumExp F) * 2 ^ quantumExp F = quanta F a := by
        rw [hc, Nat.mul_comm _ c, hr.exact _ _ hone]
      rw [hwhole]
      have h := roundLane_of_dvd (signbit F a) (lastPlace_dvd_quanta F a) (quanta_lt_overflow ha)
      exact ⟨h.1, signbit_roundLane _ _ _ _, h.2⟩
  · have hzero := hr.exact 0 _ hone
    rw [Nat.zero_mul] at hzero
    rw [rintWith_of_isZero r hz, quanta_eq_zero_iff.mpr hz, hzero, Nat.zero_mul]
    exact ⟨ha, rfl, rfl⟩

/-- The rounded lane's value is a whole number, with the operand's sign. -/
theorem laneValue_rintWith {r : ℕ → ℕ → ℕ} (hr : RoundsToWhole r) (ha : isFinite F a = true) :
    laneValue F (rintWith r F a) = (signFactor (signbit F a) * r (quanta F a) (2 ^ quantumExp F) : ℤ) := by
  obtain ⟨-, hs, hq⟩ := rintWith_spec hr ha
  rw [laneValue, signedQuanta_eq, hs, hq]
  push_cast
  field_simp

theorem abs_signFactor_mul (s : Bool) (n : ℕ) : |((signFactor s * n : ℤ) : ℚ)| = n := by
  cases s <;> simp [signFactor]

theorem abs_laneValue (F : Fmt) (x : Lane F) : |laneValue F x| = (quanta F x : ℚ) / 2 ^ quantumExp F := by
  rw [laneValue, signedQuanta_eq, abs_div, abs_of_pos (by positivity : (0 : ℚ) < 2 ^ quantumExp F)]
  cases signbit F x <;> simp [signFactor]

/-- How far the lane is from a number of its sign. -/
theorem abs_laneValue_sub (F : Fmt) (x : Lane F) (n : ℕ) :
    |laneValue F x - (signFactor (signbit F x) * n : ℤ)| = |(quanta F x : ℚ) / 2 ^ quantumExp F - n| := by
  have hfac : laneValue F x - (signFactor (signbit F x) * n : ℤ) =
      signFactor (signbit F x) * ((quanta F x : ℚ) / 2 ^ quantumExp F - n) := by
    rw [laneValue, signedQuanta_eq]
    push_cast
    ring
  rw [hfac, abs_mul]
  cases signbit F x <;> simp [signFactor]

end integral

/-- Settles O46. -/
theorem integralRounded : Obligations.IntegralRounded := by
  unfold Obligations.IntegralRounded
  refine fun F a => ⟨fun ha => ⟨?_, ?_⟩, fun h => ?_⟩
  · obtain ⟨hfin, hs, -⟩ := rintWith_spec roundsToWhole_even ha
    obtain ⟨hnear, htie⟩ := roundDivEven_near ℚ (quanta F a) (Nat.two_pow_pos (quantumExp F))
    refine ⟨hfin, hs, _, laneValue_rintWith roundsToWhole_even ha, ?_⟩
    rw [abs_laneValue_sub]
    push_cast at hnear htie
    exact ⟨hnear, fun heq => ((Int.even_coe_nat _).mpr (htie heq)).mul_left _⟩
  · obtain ⟨hfin, hs, -⟩ := rintWith_spec roundsToWhole_zero ha
    refine ⟨hfin, hs, _, laneValue_rintWith roundsToWhole_zero ha, ?_⟩
    have hq : (0 : ℚ) < 2 ^ quantumExp F := by positivity
    rw [abs_signFactor_mul, abs_laneValue, le_div_iff₀ hq, div_lt_iff₀ hq]
    constructor
    · exact_mod_cast Nat.div_mul_le_self (quanta F a) (2 ^ quantumExp F)
    · have hlt := Nat.lt_mul_div_succ (quanta F a) (Nat.two_pow_pos (quantumExp F))
      rw [Nat.mul_comm] at hlt
      exact_mod_cast hlt
  · obtain h | h := h
    · exact ⟨rintWith_of_isZero _ h, rintWith_of_isZero _ h⟩
    · exact ⟨rintWith_of_isInf _ h, rintWith_of_isInf _ h⟩

end Sys2Proof.Machine
end

section
/-!
PROOFS of 40_arith.md, the reciprocal estimates (R136). On zeros, infinities and negative numbers they are the exact
functions; elsewhere the tests on exact integers, divided by the quanta, are the error bounds on the values.
-/

namespace Sys2Proof.Machine

set_option Elab.async false

/-! ### The exact reciprocals on special operands (R124, R125) -/

section exact

variable {F : Fmt} {a : Lane F}

theorem signbit_cOne (F : Fmt) : signbit F (cOne F) = false := by cases F <;> decide

theorem isFinite_cOne (F : Fmt) : isFinite F (cOne F) = true := by cases F <;> decide

theorem isZero_cOne (F : Fmt) : isZero F (cOne F) = false := by cases F <;> decide

theorem exactRcp_of_isZero (h : isZero F a = true) : exactRcp F a = infinity F (signbit F a) := by
  rw [exactRcp, fdiv_of_isZero_right (not_isNaN_of_isFinite (isFinite_cOne F)) (isZero_cOne F) h, signbit_cOne,
    Bool.false_xor]

theorem exactRcp_of_isInf (h : isInf F a = true) : exactRcp F a = zero F (signbit F a) := by
  rw [exactRcp, fdiv_of_isInf_right (isFinite_cOne F) h, signbit_cOne, Bool.false_xor]

theorem signbit_exactRcp (ha : isFinite F a = true) (hz : isZero F a = false) :
    signbit F (exactRcp F a) = signbit F a := by
  rw [exactRcp, fdiv_of_isFinite (isFinite_cOne F) ha hz, signbit_roundLane, signbit_cOne, Bool.false_xor]

theorem exactRsqrt_of_isZero (h : isZero F a = true) : exactRsqrt F a = infinity F (signbit F a) := by
  rw [exactRsqrt, fsqrt_of_isZero h]
  exact exactRcp_of_isZero h

/-- The reciprocal root of a negative number, -∞ included, is invalid. -/
theorem exactRsqrt_of_signbit (ha : isNaN F a = false) (hz : isZero F a = false) (hs : signbit F a = true) :
    exactRsqrt F a = defaultNaN F := by
  rw [exactRsqrt, fsqrt_of_signbit ha hz hs,
    fdiv_of_isNaN_right (not_isNaN_of_isFinite (isFinite_cOne F)) (isNaN_defaultNaN F), quiet_defaultNaN]

theorem exactRsqrt_of_isInf (h : isInf F a = true) :
    exactRsqrt F a = if signbit F a = true then defaultNaN F else zero F false := by
  split
  · next hs => exact exactRsqrt_of_signbit (not_isNaN_of_isInf h) (not_isZero_of_isInf h) hs
  · next hs =>
    have hs' : signbit F a = false := by simpa using hs
    rw [exactRsqrt, fsqrt_of_isInf h hs', ← hs']
    exact exactRcp_of_isInf h

end exact

/-! ### When an estimate is the exact function (R136) -/

section estimate

variable {F : Fmt} {a : Lane F}

theorem isNaN_rcpEst (h : isNaN F a = true) : isNaN F (rcpEst F a) = true := by
  simp only [rcpEst, h, if_true]
  split
  · assumption
  · exact isNaN_quiet a h

theorem isNaN_rsqrtEst (h : isNaN F a = true) : isNaN F (rsqrtEst F a) = true := by
  simp only [rsqrtEst, h, if_true]
  split
  · assumption
  · exact isNaN_quiet a h

theorem rcpEst_of_special (h : isInf F a = true ∨ isZero F a = true) : rcpEst F a = exactRcp F a := by
  have hn : isNaN F a = false := h.elim not_isNaN_of_isInf not_isNaN_of_isZero
  have hs : (isInf F a || isZero F a) = true := by simpa using h
  simp only [rcpEst, hn, hs, Bool.false_eq_true, if_true, if_false]

theorem rsqrtEst_of_special (hn : isNaN F a = false) (h : isInf F a = true ∨ isZero F a = true ∨ signbit F a = true) :
    rsqrtEst F a = exactRsqrt F a := by
  have hs : (isInf F a || isZero F a || signbit F a) = true := by simpa [or_assoc] using h
  simp only [rsqrtEst, hn, hs, Bool.false_eq_true, if_true, if_false]

/-- What the estimate of a finite lane that is not zero can be. -/
theorem rcpEst_cases (ha : isFinite F a = true) (hz : isZero F a = false) :
    rcpEst F a = exactRcp F a ∨
      (reciprocalNormal F a = true ∧ rcpWithin F a (rcpEst F a) = true) ∨
      (reciprocalNormal F a = false ∧ signbit F (rcpEst F a) = signbit F a) := by
  have hdef : rcpEst F a =
      if reciprocalNormal F a then
        if rcpWithin F a (Config.rcpEstimate F a) then Config.rcpEstimate F a else exactRcp F a
      else if signbit F (Config.rcpEstimate F a) == signbit F a then Config.rcpEstimate F a else exactRcp F a := by
    simp only [rcpEst, not_isNaN_of_isFinite ha, not_isInf_of_isFinite ha, hz, Bool.or_self, Bool.false_eq_true,
      if_false]
  split at hdef
  · next hr =>
    split at hdef
    · next hw => exact .inr (.inl ⟨hr, by rwa [hdef]⟩)
    · exact .inl hdef
  · next hr =>
    split at hdef
    · next hs => exact .inr (.inr ⟨by simpa using hr, by rw [hdef]; simpa using hs⟩)
    · exact .inl hdef

/-- What the estimate of a finite positive lane can be. -/
theorem rsqrtEst_cases (ha : isFinite F a = true) (hz : isZero F a = false) (hs : signbit F a = false) :
    rsqrtEst F a = exactRsqrt F a ∨ rsqrtWithin F a (rsqrtEst F a) = true := by
  simp only [rsqrtEst, not_isNaN_of_isFinite ha, not_isInf_of_isFinite ha, hz, hs, Bool.or_self, Bool.false_eq_true,
    if_false]
  split
  · next hw => exact .inr hw
  · exact .inl rfl

theorem signbit_rcpEst (ha : isFinite F a = true) (hz : isZero F a = false) : signbit F (rcpEst F a) = signbit F a := by
  obtain h | ⟨-, h⟩ | ⟨-, h⟩ := rcpEst_cases ha hz
  · rw [h, signbit_exactRcp ha hz]
  · simp only [rcpWithin, Bool.and_eq_true, beq_iff_eq] at h
    exact h.1.2
  · exact h

/-- A lane whose reciprocal is normal is not zero. -/
theorem not_isZero_of_reciprocalNormal (h : reciprocalNormal F a = true) : isZero F a = false := by
  cases hz : isZero F a
  · rfl
  · simp only [reciprocalNormal, quanta_eq_zero_iff.mpr hz, Bool.and_eq_true, decide_eq_true_eq, Nat.mul_zero] at h
    exact absurd h.2 (Nat.not_le.mpr (Nat.two_pow_pos _))

end estimate

/-! ### The tests as error bounds (R136) -/

section bounds

variable {F : Fmt} {a e : Lane F}

/-- The test on the product of the quanta is the bound on the distance to the reciprocal. -/
theorem rcpWithin_bound (hz : isZero F a = false) (h : rcpWithin F a e = true) :
    isFinite F e = true ∧
      |laneValue F e - 1 / laneValue F a| * Config.estRelErrDen ≤ Config.estRelErrNum * |1 / laneValue F a| := by
  simp only [rcpWithin, Bool.and_eq_true, beq_iff_eq, decide_eq_true_eq] at h
  obtain ⟨⟨hfin, hsign⟩, hbound⟩ := h
  have hone : (0 : ℚ) < 2 ^ (2 * quantumExp F) := by positivity
  have hpos : (0 : ℚ) < |laneValue F a| := by
    rw [abs_laneValue]
    have : (0 : ℚ) < quanta F a := by exact_mod_cast quanta_pos hz
    positivity
  have hprod : laneValue F e * laneValue F a - 1 =
      (((quanta F e * quanta F a : ℕ) - (2 ^ (2 * quantumExp F) : ℕ) : ℤ) : ℚ) / 2 ^ (2 * quantumExp F) := by
    have hss : (signFactor (signbit F a) : ℚ) * signFactor (signbit F a) = 1 := by
      exact_mod_cast signFactor_mul_self (signbit F a)
    rw [laneValue, laneValue, signedQuanta_eq, signedQuanta_eq, hsign]
    push_cast
    rw [two_mul, pow_add]
    field_simp
    linear_combination (quanta F e * quanta F a : ℚ) * hss
  have hcore : |laneValue F e * laneValue F a - 1| * Config.estRelErrDen ≤ Config.estRelErrNum := by
    rw [hprod, abs_div, abs_of_pos hone, div_mul_eq_mul_div, div_le_iff₀ hone, ← Int.cast_abs, Int.abs_eq_natAbs]
    exact_mod_cast hbound
  have hdist : laneValue F e - 1 / laneValue F a = (laneValue F e * laneValue F a - 1) / laneValue F a := by
    rw [sub_div, mul_div_cancel_right₀ _ (abs_pos.mp hpos)]
  refine ⟨hfin, ?_⟩
  rw [hdist, abs_div, abs_div, abs_one, div_mul_eq_mul_div, mul_one_div]
  gcongr

/-- The test on the squared error is the bound on the distance to the reciprocal root. -/
theorem rsqrtWithin_bound (hz : isZero F a = false) (hs : signbit F a = false) (h : rsqrtWithin F a e = true) :
    isFinite F e = true ∧ signbit F e = false ∧
      |((laneValue F e : ℚ) : ℝ) - 1 / Real.sqrt ((laneValue F a : ℚ) : ℝ)| * Config.estRelErrDen ≤
        Config.estRelErrNum * (1 / Real.sqrt ((laneValue F a : ℚ) : ℝ)) := by
  simp only [rsqrtWithin, Bool.and_eq_true, Bool.not_eq_true', decide_eq_true_eq] at h
  obtain ⟨⟨⟨hfin, hsign⟩, hhi⟩, hlo⟩ := h
  refine ⟨hfin, hsign, ?_⟩
  have hqa : (0 : ℝ) < quanta F a := by exact_mod_cast quanta_pos hz
  have hva : ((laneValue F a : ℚ) : ℝ) = quanta F a / 2 ^ quantumExp F := by simp [laneValue_eq, hs, signFactor]
  have hve : ((laneValue F e : ℚ) : ℝ) = quanta F e / 2 ^ quantumExp F := by simp [laneValue_eq, hsign, signFactor]
  have hroot : 0 < Real.sqrt ((laneValue F a : ℚ) : ℝ) := Real.sqrt_pos.mpr (by rw [hva]; positivity)
  generalize hD : Config.estRelErrDen = D at *
  generalize hN : Config.estRelErrNum = N at *
  have hsq : (((laneValue F e : ℚ) : ℝ) * Real.sqrt ((laneValue F a : ℚ) : ℝ) * D) ^ 2 * 2 ^ (3 * quantumExp F) =
      (quanta F e ^ 2 * quanta F a * D ^ 2 : ℕ) := by
    rw [mul_pow, mul_pow, Real.sq_sqrt (by rw [hva]; positivity), hva, hve, mul_comm 3, pow_mul]
    push_cast
    field_simp
  have ht : 0 ≤ ((laneValue F e : ℚ) : ℝ) * Real.sqrt ((laneValue F a : ℚ) : ℝ) * D := by
    rw [hve]
    positivity
  generalize ((laneValue F e : ℚ) : ℝ) = y at *
  generalize Real.sqrt ((laneValue F a : ℚ) : ℝ) = z at *
  have hone : (0 : ℝ) < 2 ^ (3 * quantumExp F) := by positivity
  have hupper : y * z * D ≤ D + N := by
    refine (pow_le_pow_iff_left₀ ht (by positivity) two_ne_zero).mp (le_of_mul_le_mul_right ?_ hone)
    rw [hsq]
    exact_mod_cast hhi
  have hlower : ((D - N : ℕ) : ℝ) ≤ y * z * D := by
    refine (pow_le_pow_iff_left₀ (Nat.cast_nonneg _) ht two_ne_zero).mp (le_of_mul_le_mul_right ?_ hone)
    rw [hsq]
    exact_mod_cast hlo
  have hsub : (D : ℝ) ≤ (D - N : ℕ) + N := by exact_mod_cast Nat.le_add_of_sub_le le_rfl
  have hcore : |y * z - 1| * D ≤ N := by
    conv_lhs => rw [← abs_of_nonneg (Nat.cast_nonneg (α := ℝ) D)]
    rw [← abs_mul, abs_le]
    constructor <;> linarith
  have hdist : y - 1 / z = (y * z - 1) / z := by rw [sub_div, mul_div_cancel_right₀ _ hroot.ne']
  rw [hdist, abs_div, abs_of_pos hroot, div_mul_eq_mul_div, mul_one_div]
  gcongr

end bounds

/-- Settles O51. -/
theorem estimateLimits : Obligations.EstimateLimits := by
  unfold Obligations.EstimateLimits
  refine fun F a => ⟨fun h => ⟨?_, ?_⟩, fun h => ⟨?_, ?_⟩, fun h => ⟨isNaN_rcpEst h, isNaN_rsqrtEst h⟩, signbit_rcpEst,
    fun ha hr => ?_, fun ha hz hs => ?_, fun ha hz hs => ?_⟩
  · rw [rcpEst_of_special (.inr h), exactRcp_of_isZero h]
  · rw [rsqrtEst_of_special (not_isNaN_of_isZero h) (.inr (.inl h)), exactRsqrt_of_isZero h]
  · rw [rcpEst_of_special (.inl h), exactRcp_of_isInf h]
  · rw [rsqrtEst_of_special (not_isNaN_of_isInf h) (.inl h), exactRsqrt_of_isInf h]
  · have hz := not_isZero_of_reciprocalNormal hr
    obtain h | ⟨-, h⟩ | ⟨hr', -⟩ := rcpEst_cases ha hz
    · exact .inl h
    · exact .inr (rcpWithin_bound hz h)
    · exact absurd hr (by simp [hr'])
  · have hn := not_isNaN_of_isFinite ha
    rw [rsqrtEst_of_special hn (.inr (.inr hs)), exactRsqrt_of_signbit hn hz hs]
  · exact (rsqrtEst_cases ha hz hs).imp_right (rsqrtWithin_bound hz hs)

end Sys2Proof.Machine
end

section
/-!
PROOFS of 40_arith.md, the results of the transcendental commands (R190 to R239). The evaluator of R170 and R171 is
written out once, for every table; the selects by masks are choices; and the arctangent's sign lane times π/2 is ±π/2.
-/

namespace Sys2Proof.Machine

set_option Elab.async false

/-! ### The evaluator written out (R100, R170, R171) -/

section evaluator

variable (F : Fmt) (fu : Bool) (k : CoefRom F) (m : Lane F)

theorem mulAdd_eq (a b c : Lane F) :
    mulAdd F fu a b c = if fu = true then ffma F a b c else fadd F (fmul F a b) c := rfl

/-- The polynomial of R171 for a table of `n` terms: Horner's rule, highest coefficient first, and the leading 1. -/
theorem poly1_eq (t : TableId) {n : Nat} (hn : termCount t = n) :
    poly1 F fu k t m =
      mulAdd F fu ((List.range (n - 1)).foldr (fun i acc => mulAdd F fu acc m (coef k t i)) (coef k t (n - 1))) m
        (constLane F 1) := by
  subst hn
  rw [poly1, horner, hornerSteps_eq_foldr]
  rfl

/-- The sine's polynomial, in the tier that APX and the present bit choose (R191, R192). -/
theorem poly1_sinTable (apx : Bool) :
    poly1 F fu k (sinTable k apx) m =
      if apx = true ∧ tablePresent k .sinA = true then poly1 F fu k .sinA m else poly1 F fu k .sinP m := by
  simp only [sinTable, Bool.and_eq_true, apply_ite (poly1 F fu k · m)]

/-- The cosine's polynomial, chosen on its own (R191, R192). -/
theorem poly1_cosTable (apx : Bool) :
    poly1 F fu k (cosTable k apx) m =
      if apx = true ∧ tablePresent k .cosA = true then poly1 F fu k .cosA m else poly1 F fu k .cosP m := by
  simp only [cosTable, Bool.and_eq_true, apply_ite (poly1 F fu k · m)]

/-- The arctangent's polynomial (R230, R231). -/
theorem poly1_atanTable (apx : Bool) :
    poly1 F fu k (atanTable k apx) m =
      if apx = true ∧ tablePresent k .atanA = true then poly1 F fu k .atanA m else poly1 F fu k .atanP m := by
  simp only [atanTable, Bool.and_eq_true, apply_ite (poly1 F fu k · m)]

end evaluator

/-! ### SIN, COS and SINCOS (R190 to R197) -/

theorem sinLane_eq (F : Fmt) (cap : BitVec 3) (k : CoefRom F) (apx : Bool) (x : Lane F) :
    sinLane F cap k apx x =
      if fast F cap = true then
        let f := (foldLane F (mod2PiLane F x)).1
        fmul F (poly1 F (fused F cap) k (sinTable k apx) (fmul F f f)) f
      else refSin F x := rfl

theorem cosLane_eq (F : Fmt) (cap : BitVec 3) (k : CoefRom F) (apx : Bool) (x : Lane F) :
    cosLane F cap k apx x =
      if fast F cap = true then
        let f := foldLane F (mod2PiLane F x)
        fmul F (poly1 F (fused F cap) k (cosTable k apx) (fmul F f.1 f.1)) f.2
      else refCos F x := rfl

/-- Settles O36: the pipeline with its polynomials written out. -/
theorem sinCosResult : Obligations.SinCosResult := by
  unfold Obligations.SinCosResult
  intro F apx s k onFast mad poly folded sine cosine r0 r1
  have hfast : fast F s.cap = onFast := fast_eq F s.cap
  have hmad : ∀ a b c, mulAdd F (fused F s.cap) a b c = mad a b c := fun a b c => by
    simp only [mulAdd_eq, fused_eq, hfast, Bool.and_eq_true, mad]
  have hpoly : ∀ (t : TableId) {n : Nat}, termCount t = n → ∀ m, poly1 F (fused F s.cap) k t m = poly t n m :=
    fun t n hn m => by simp only [poly1_eq F _ k m t hn, hmad, poly]
  have hsine : ∀ x, sinLane F s.cap k apx x = if onFast = true then sine x else refSin F x := fun x => by
    simp only [sinLane_eq, hfast, poly1_sinTable, hpoly .sinA rfl, hpoly .sinP rfl, termCount, sine, folded]
  have hcosine : ∀ x, cosLane F s.cap k apx x = if onFast = true then cosine x else refCos F x := fun x => by
    simp only [cosLane_eq, hfast, poly1_cosTable, hpoly .cosA rfl, hpoly .cosP rfl, termCount, cosine, folded]
  exact ⟨(completes_of_answerUnary rfl).congr (fun j => hsine _) fun _ => rfl,
    (completes_of_answerUnary rfl).congr (fun j => hcosine _) fun _ => rfl,
    (completes_of_answer2 rfl).congr (fun j => by rw [Lanes.map_get, opA_get, hsine])
      fun j => by rw [Lanes.map_get, opA_get, hcosine]⟩

/-! ### TAN and TANAPPROX (R210 to R216) -/

/-- `Odd_F` of R211 by value: a finite quotient is odd when its quanta are an odd multiple of 1's. -/
theorem isOddIntegral_iff (F : Fmt) (q : Lane F) :
    isOddIntegral F q = true ↔ isFinite F q = true ∧ ∃ n : ℤ, Odd n ∧ laneValue F q = n := by
  have hvalue : ∀ n : ℤ, laneValue F q = n ↔ signedQuanta F q = n * 2 ^ quantumExp F := fun n => by
    rw [laneValue, div_eq_iff (by positivity)]
    exact_mod_cast Iff.rfl
  have hodd : (quanta F q % 2 ^ quantumExp F = 0 ∧ quanta F q / 2 ^ quantumExp F % 2 = 1) ↔
      ∃ m : ℕ, Odd m ∧ quanta F q = m * 2 ^ quantumExp F := by
    constructor
    · rintro ⟨hdvd, hpar⟩
      exact ⟨_, Nat.odd_iff.mpr hpar, (Nat.div_mul_cancel (Nat.dvd_of_mod_eq_zero hdvd)).symm⟩
    · rintro ⟨m, hm, hq⟩
      rw [hq, Nat.mul_mod_left, Nat.mul_div_cancel _ (Nat.two_pow_pos _)]
      exact ⟨rfl, Nat.odd_iff.mp hm⟩
  simp only [isOddIntegral, Bool.and_eq_true, beq_iff_eq, and_assoc, hodd, hvalue]
  refine and_congr_right fun _ => ⟨fun ⟨m, hm, hq⟩ => ?_, fun ⟨n, hn, hq⟩ => ⟨n.natAbs, Int.natAbs_odd.mpr hn, ?_⟩⟩
  · refine ⟨if signbit F q then -(m : ℤ) else m, ?_, ?_⟩
    · split <;> simpa using hm
    · rw [signedQuanta, hq]
      split <;> push_cast <;> ring
  · have habs := congrArg Int.natAbs hq
    rw [Int.natAbs_mul, Int.natAbs_pow] at habs
    rw [show quanta F q = (signedQuanta F q).natAbs by unfold signedQuanta; split <;> simp]
    exact habs

/-- `Tan_F` of R215 with its masks read as choices. -/
theorem tanPrecise_eq (F : Fmt) (fu : Bool) (k : CoefRom F) (x : Lane F) :
    tanPrecise F fu k x =
      let q := rintEven F (fdiv F x (cHalfPi F))
      let r := fsub F x (fmul F q (cHalfPi F))
      let near := flt F (pack F false (magnitude F r)) (cTanEps F)
      let num := if near = true then r else fmul F r (poly1 F fu k .tanNP (fmul F r r))
      let den := if near = true then cOne F else poly1 F fu k .tanDP (fmul F r r)
      if isZero F x = true then zero F false
      else if isOddIntegral F q = true then fdiv F (flipSign F den) num
      else fdiv F num den := by
  simp only [tanPrecise, tanReduce, tanGuard, tanRational, sel_mask, negLane_eq_flipSign, and_signClear, feq_cZero]
  cases F <;> rfl

theorem tanRatio_eq (F : Fmt) (fu : Bool) (k : CoefRom F) (x : Lane F) :
    tanRatio F fu k x =
      let r := fsub F x (fmul F (rintEven F (fmul F x (cOneOverPi F))) (cPi F))
      let m := fmul F r r
      fdiv F (fmul F r (mulAdd F fu (coef k .tanA 1) m (coef k .tanA 0))) (fsub F (coef k .tanA 2) m) := rfl

/-- Settles O37. -/
theorem tanResult : Obligations.TanResult := by
  unfold Obligations.TanResult
  refine ⟨isOddIntegral_iff, fun F s => ?_⟩
  intro k onFast mad poly precise ratio
  have hfast : fast F s.cap = onFast := fast_eq F s.cap
  have hmad : ∀ a b c, mulAdd F (fused F s.cap) a b c = mad a b c := fun a b c => by
    simp only [mulAdd_eq, fused_eq, hfast, Bool.and_eq_true, mad]
  have hpoly : ∀ t : TableId, termCount t = 2 → ∀ m, poly1 F (fused F s.cap) k t m = poly t m := fun t ht m => by
    rw [poly1_eq F _ k m t ht]
    simp only [hmad, poly]
    rfl
  have hprecise : ∀ x, tanPrecise F (fused F s.cap) k x = precise x := fun x => by
    simp only [tanPrecise_eq, hpoly .tanNP rfl, hpoly .tanDP rfl, precise]
    rfl
  have hratio : ∀ x, tanRatio F (fused F s.cap) k x = ratio x := fun x => by
    simp only [tanRatio_eq, hmad, ratio]
    rfl
  refine ⟨(completes_of_answerUnary rfl).congr (fun j => hprecise _) fun _ => rfl,
    (completes_of_answerUnary rfl).congr (fun j => ?_) fun _ => rfl⟩
  simp only [tanApproxLane, hfast, Bool.and_eq_true, hratio, hprecise, k]

/-! ### ATAN and ATAN2 (R230 to R239) -/

/-- A common factor does not change what is rounded. -/
theorem roundLane_mul_left (F : Fmt) (s : Bool) (num den : ℕ) {c : ℕ} (hc : 0 < c) :
    roundLane F s (c * num) (c * den) = roundLane F s num den := by
  have hdiv : ∀ d, roundDivEven (c * num) (c * d) = roundDivEven num d := fun d => by
    have hlt : c * d < 2 * (c * (num % d)) ↔ d < 2 * (num % d) := by
      rw [Nat.mul_left_comm, Nat.mul_lt_mul_left hc]
    have heq : 2 * (c * (num % d)) = c * d ↔ 2 * (num % d) = d := by
      rw [Nat.mul_left_comm, Nat.mul_left_cancel_iff hc]
    simp only [roundDivEven, Nat.mul_div_mul_left _ _ hc, Nat.mul_mod_mul_left, hlt, heq]
  simp only [roundLane, roundMagnitude, Nat.mul_div_mul_left _ _ hc, Nat.mul_assoc, hdiv]

/-- A product with ±1 is the other operand, with the sign of the product. -/
theorem fmul_of_quanta_one {F : Fmt} {u x : Lane F} (hu : isFinite F u = true) (hone : quanta F u = 2 ^ quantumExp F)
    (hx : isFinite F x = true) : fmul F u x = pack F (signbit F u ^^ signbit F x) (magnitude F x) := by
  have hscale := roundLane_mul_left F (signbit F u ^^ signbit F x) (quanta F x) 1 (Nat.two_pow_pos (quantumExp F))
  rw [Nat.mul_one] at hscale
  rw [fmul_of_isFinite hu hx, hone, hscale, roundLane_quanta hx]

/-- ±1 in quanta. -/
theorem NormalLane.quanta_one {F : Fmt} {u : Lane F} {s : Bool} {k : ℕ} (h : NormalLane F u s k F.fracBits 0) :
    quanta F u = 2 ^ quantumExp F := by
  rw [quanta_of_normal h.fraction_lt h.magnitude_eq, Nat.add_zero, ← Nat.pow_add, Nat.add_comm, h.exponent]

/-- The sign lane's ±1 times π/2. -/
theorem fmul_one_halfPi (F : Fmt) : fmul F (cOne F) (cHalfPi F) = cHalfPi F := by
  rw [cOne, cHalfPi, fmul_of_quanta_one (normalLane_one F).isFinite (normalLane_one F).quanta_one
    (normalLane_halfPi F).isFinite]
  cases F <;> decide

theorem fmul_negOne_halfPi (F : Fmt) : fmul F (cNegOne F) (cHalfPi F) = flipSign F (cHalfPi F) := by
  rw [cNegOne, cHalfPi, fmul_of_quanta_one (normalLane_negOne F).isFinite (normalLane_negOne F).quanta_one
    (normalLane_halfPi F).isFinite]
  cases F <;> decide

/-- The arctangent of R233 with its masks read as choices: the sign lane is 0 exactly for |x| ≤ 1. -/
theorem atanOf_eq (F : Fmt) (fu : Bool) (k : CoefRom F) (apx : Bool) (x : Lane F) :
    atanOf F fu k apx x =
      let series := fun z => fmul F (poly1 F fu k (atanTable k apx) (fmul F z z)) z
      if fle F (pack F false (magnitude F x)) (cOne F) = true then series x
      else fsub F (if flt F (cOne F) x = true then cHalfPi F else flipSign F (cHalfPi F))
        (series (fdiv F (cOne F) x)) := by
  have hzero : feq F (cZero F) (cZero F) = true := by cases F <;> decide
  have hone : feq F (cOne F) (cZero F) = false := by cases F <;> decide
  have hnegOne : feq F (cNegOne F) (cZero F) = false := by cases F <;> decide
  simp only [atanOf, atanSign, atanInRange, sel_mask, and_signClear]
  by_cases hin : fle F (pack F false (magnitude F x)) (cOne F) = true
  · simp only [hin, if_true, hzero]
  · simp only [hin]
    by_cases hpos : flt F (cOne F) x = true
    · simp [hpos, hone, fmul_one_halfPi]
    · simp [hpos, hnegOne, fmul_negOne_halfPi]

/-- Settles O38: ATAN's sign lane is a choice, and ATAN2's arctangent is ATAN's by definition. -/
theorem atanResult : Obligations.AtanResult := by
  unfold Obligations.AtanResult
  intro F apx sb s k onFast fu mad poly series arc
  have hfu : fused F s.cap = fu := by rw [fused_eq, fast_eq]
  have hpoly : ∀ (t : TableId) {n : Nat}, termCount t = n → ∀ m, poly1 F fu k t m = poly t n m :=
    fun t n hn m => by rw [poly1_eq F _ k m t hn]; rfl
  have harc : ∀ x, atanOf F fu k apx x = arc x := fun x => by
    simp only [atanOf_eq, poly1_atanTable, hpoly .atanA rfl, hpoly .atanP rfl, termCount, arc, series]
    rfl
  refine ⟨(completes_of_answerUnary rfl).congr (fun j => ?_) fun _ => rfl,
    (completes_of_answerBinary rfl).congr (fun j => ?_) fun _ => rfl, harc⟩
  · rw [atanLane, hfu]
    exact harc _
  · rw [atan2Lane, hfu]

end Sys2Proof.Machine
end

section
/-!
PROOFS of 41_logic.md. The compares answer with masks (R140), so each completes with a choice between all ones and zero.
The sign commands are read off the sign bit and the magnitude of their lane (R153, R154), the cross-lane commands off the
lanes of the vector they answer with (R155, R156).
-/

namespace Sys2Proof.Machine

set_option Elab.async false

/-! ### Compares and the bounds test (R140 to R147) -/

/-- A compare completes with all ones in the lanes where its predicate holds and zero in the others (R140). -/
theorem completes_of_answerMask {i : Instr} {s : State} {F : Fmt} {sb : Bool} {p : Lane F → Lane F → Bool}
    (h : exec i s = answerBinary s F sb fun a b => mask F (p a b)) :
    Completes i s F (fun j => if p (laneA s F j) (laneB s F sb j) = true then BitVec.allOnes F.width else 0)
      (noResult F) :=
  completes_of_answerBinary h

/-- The mask of a complement swaps the two lanes. -/
theorem mask_not (F : Fmt) (p : Bool) : mask F (!p) = if p = true then 0 else BitVec.allOnes F.width := by
  cases p <;> rfl

/-- INBOUNDS is the mask of both its bounds. -/
theorem inboundsLane_eq (F : Fmt) (v bounds : Lane F) :
    inboundsLane F v bounds =
      if fle F v bounds = true ∧ fle F (flipSign F bounds) v = true then BitVec.allOnes F.width else 0 := by
  rw [inboundsLane, mask_and_mask, negLane_eq_flipSign, mask]
  simp only [Bool.and_eq_true]

/-- Settles O32: each answers with the mask of its predicate. -/
theorem compareResult : Obligations.CompareResult := by
  unfold Obligations.CompareResult
  intro F sb s
  refine ⟨completes_of_answerMask (exec_cmpeq s F sb),
    (completes_of_answerBinary (exec_cmpne s F sb)).congr (fun j => mask_not F _) fun _ => rfl,
    completes_of_answerMask (exec_cmplt s F sb), completes_of_answerMask (exec_cmple s F sb),
    completes_of_answerMask (p := fun a b => flt F b a) (exec_cmpgt s F sb),
    completes_of_answerMask (p := fun a b => fle F b a) (exec_cmpge s F sb),
    (completes_of_answerBinary (exec_inbounds s F sb)).congr (fun j => inboundsLane_eq F _ _) fun _ => rfl⟩

/-! ### The sign bit and the magnitude under the bitwise operations (R148, R149) -/

section bitwise

variable {F : Fmt} (x y : Lane F)

@[simp] theorem signbit_and : signbit F (x &&& y) = (signbit F x && signbit F y) := BitVec.getLsbD_and

@[simp] theorem signbit_or : signbit F (x ||| y) = (signbit F x || signbit F y) := BitVec.getLsbD_or

@[simp] theorem magnitude_and : magnitude F (x &&& y) = magnitude F x &&& magnitude F y := by
  rw [magnitude, BitVec.toNat_and, Nat.and_mod_two_pow]
  rfl

@[simp] theorem magnitude_or : magnitude F (x ||| y) = magnitude F x ||| magnitude F y := by
  rw [magnitude, BitVec.toNat_or, Nat.or_mod_two_pow]
  rfl

end bitwise

/-- SignMask is -0. -/
theorem cSignMask_eq_zero (F : Fmt) : cSignMask F = zero F true := by cases F <;> decide

/-! ### The sign commands (R118, R153, R154) -/

/-- EXTSIGN gives the zero of its operand's sign (R154). -/
theorem extSignLane_eq_zero (F : Fmt) (a : Lane F) : extSignLane F a = zero F (signbit F a) := by
  apply lane_ext <;> simp [extSignLane, cSignMask_eq_zero]

/-- A lane is less than its negation exactly when it is a negative number that is not a zero. -/
theorem flt_flipSign_iff (F : Fmt) (v : Lane F) :
    flt F v (flipSign F v) = true ↔ signbit F v = true ∧ isZero F v = false ∧ isNaN F v = false := by
  have hkey : orderKey F v < orderKey F (flipSign F v) ↔ signbit F v = true ∧ isZero F v = false := by
    rw [orderKey, orderKey, signbit_flipSign, magnitude_flipSign, isZero, beq_eq_false_iff_ne]
    cases signbit F v
    · simp only [Bool.not_false, Bool.false_eq_true, if_true, if_false, false_and, iff_false]
      omega
    · simp only [Bool.not_true, Bool.false_eq_true, if_true, if_false, true_and]
      omega
  rw [flt_iff, isNaN_flipSign, hkey]
  tauto

/-- ABS flips the sign of a negative number; -0 and a negative NaN keep theirs (C7). -/
theorem absLane_eq (F : Fmt) (v : Lane F) :
    absLane F v =
      if signbit F v = true ∧ isZero F v = false ∧ isNaN F v = false then flipSign F v else v := by
  rw [absLane, maxLane, negLane_eq_flipSign]
  simp only [flt_flipSign_iff]

@[simp] theorem magnitude_absLane (F : Fmt) (v : Lane F) : magnitude F (absLane F v) = magnitude F v := by
  rw [absLane_eq]
  split
  · exact magnitude_flipSign F v
  · rfl

@[simp] theorem signbit_absLane (F : Fmt) (v : Lane F) :
    signbit F (absLane F v) = (signbit F v && (isZero F v || isNaN F v)) := by
  rw [absLane_eq]
  split
  · next h =>
    obtain ⟨hs, hz, hn⟩ := h
    rw [signbit_flipSign, hs, hz, hn]
    rfl
  · next h =>
    cases hs : signbit F v
    · rfl
    · cases hz : isZero F v
      · cases hn : isNaN F v
        · exact absurd ⟨hs, hz, hn⟩ h
        · rfl
      · rfl

/-- COPYSIGN is the first sign on the second magnitude, except where ABS leaves a sign bit (R153, C7). -/
theorem copySignLane_eq (F : Fmt) (a v : Lane F) :
    copySignLane F a v =
      if signbit F v = true ∧ (isZero F v = true ∨ isNaN F v = true) then v
      else pack F (signbit F a) (magnitude F v) := by
  rw [copySignLane, extSignLane_eq_zero]
  have hmag : magnitude F (zero F (signbit F a) ||| absLane F v) = magnitude F v := by simp
  have hsign : signbit F (zero F (signbit F a) ||| absLane F v) =
      (signbit F a || (signbit F v && (isZero F v || isNaN F v))) := by simp
  split
  · next h =>
    obtain ⟨hs, hkept⟩ := h
    refine lane_ext ?_ hmag
    rw [hsign, hs, Bool.true_and, (Bool.or_eq_true _ _).mpr hkept, Bool.or_true]
  · next h =>
    rw [← Bool.or_eq_true, ← Bool.and_eq_true, Bool.not_eq_true] at h
    refine lane_ext ?_ ?_
    · rw [hsign, h, Bool.or_false, signbit_pack _ (magnitude_lt F v)]
    · rw [hmag, magnitude_pack _ (magnitude_lt F v)]

/-- Settles O33: each is one lane function of its operands. -/
theorem bitwiseResult : Obligations.BitwiseResult := by
  unfold Obligations.BitwiseResult
  intro F sb s
  exact ⟨completes_of_answerBinary (exec_and s F sb), completes_of_answerBinary (exec_or s F sb),
    completes_of_answerBinary (exec_andnot s F sb), completes_of_answerBinary (exec_xor s F sb),
    (completes_of_answerUnary (exec_extsign s F)).congr (fun j => extSignLane_eq_zero F _) fun _ => rfl,
    (completes_of_answerBinary (exec_copysign s F sb)).congr (fun j => copySignLane_eq F _ _) fun _ => rfl⟩

/-! ### The cross-lane commands (R155, R156) -/

/-- The lanes of HADD (R155). -/
theorem haddLanes_get {F : Fmt} (a b : Lanes F) (j : Fin 4) :
    (haddLanes F a b).get j =
      if j = 0 then fadd F (a.get 0) (a.get 1)
      else if j = 1 then fadd F (a.get 2) (a.get 3)
      else if j = 2 then fadd F (b.get 0) (b.get 1)
      else fadd F (b.get 2) (b.get 3) := by
  match j with
  | 0 | 1 | 2 | 3 => rfl

/-- Settles O34: both answer with one vector, of sums or of copies. -/
theorem crossLaneResult : Obligations.CrossLaneResult := by
  unfold Obligations.CrossLaneResult
  intro F s
  refine ⟨fun sb => (completes_of_answer1 (exec_hadd s F sb)).congr (fun j => ?_) fun _ => rfl,
    fun l => (completes_of_answer1 (exec_bcast s F l)).congr (fun j => ?_) fun _ => rfl, fun idx h => ?_⟩
  · simp only [haddLanes_get, opA_get, opB_get]
  · rw [Lanes.all_get, opA_get]
  · rw [exec_bcast_illegal s F h]
    exact answeredIllegal_answerIllegal s

end Sys2Proof.Machine
end

section
/-!
PROOFS of 42_reduce_fold.md. The 2π reduction is `x - q · 2π` for an integral `q` (R173): for a zero, a NaN or an infinity
the product takes the class and the sign of `x`, and for ±π the tie of `x/2π` goes to `q = 0`, so that `x` is left. The fold
is a choice by magnitude between the lane and its reflection in ±π (R175).
-/

namespace Sys2Proof.Machine

set_option Elab.async false

/-! ### Sums and products of one lane (R103, R106, R107) -/

section lanes

variable {F : Fmt} {a b : Lane F}

/-- An exact zero is +0, whatever the lane's sign. -/
theorem fsub_self_of_isFinite (ha : isFinite F a = true) : fsub F a a = zero F false := by
  have hn := not_isNaN_of_isFinite ha
  have hsum : laneValue F a + laneValue F (flipSign F a) = 0 := by rw [laneValue_flipSign, add_neg_cancel]
  rw [fsub_eq_fadd hn hn, fadd_exact_zero ha ((isFinite_flipSign a).trans ha) hsum, signbit_flipSign, Bool.and_not_self]

/-- ∞ - ∞ is invalid (R106). -/
theorem fsub_self_of_isInf (ha : isInf F a = true) : fsub F a a = defaultNaN F := by
  have hn := not_isNaN_of_isInf ha
  rw [fsub_eq_fadd hn hn]
  exact fadd_of_isInf_opposite ha ((isInf_flipSign a).trans ha) (by simp)

theorem fsub_of_isInf_right (ha : isFinite F a = true) (hb : isInf F b = true) :
    fsub F a b = infinity F (!signbit F b) := by
  have hflip : isInf F (flipSign F b) = true := (isInf_flipSign b).trans hb
  rw [fsub_eq_fadd (not_isNaN_of_isFinite ha) (not_isNaN_of_isInf hb), fadd_of_isInf_right ha hflip,
    eq_infinity_of_isInf hflip, signbit_flipSign]

/-- The value of a lane that is no zero is rounded to the lane. -/
theorem fsub_of_isZero_right (ha : isFinite F a = true) (hz : isZero F a = false) (hb : isZero F b = true) :
    fsub F a b = a := by
  have hb' : isZero F (flipSign F b) = true := (isZero_flipSign b).trans hb
  have hpos : 0 < quanta F a := quanta_pos hz
  have hq : signedQuanta F (flipSign F b) = 0 := by
    rw [signedQuanta_eq, quanta_eq_zero_iff.mpr hb', Nat.cast_zero, mul_zero]
  have hne : signedQuanta F a ≠ 0 := by unfold signedQuanta; split <;> omega
  have habs : (signedQuanta F a).natAbs = quanta F a := by unfold signedQuanta; split <;> simp
  have hsign : decide (signedQuanta F a < 0) = signbit F a := by
    cases hs : signbit F a <;> simp [signedQuanta, hs, hpos]
  rw [fsub_eq_fadd (not_isNaN_of_isFinite ha) (not_isNaN_of_isZero hb), fadd_of_isFinite ha (isFinite_of_isZero hb'), hq,
    add_zero, if_neg hne, habs, hsign, roundLane_quanta ha, pack_signbit_magnitude]

theorem fmul_of_isZero_left (ha : isZero F a = true) (hb : isFinite F b = true) :
    fmul F a b = zero F (signbit F a ^^ signbit F b) := by
  rw [fmul_of_isFinite (isFinite_of_isZero ha) hb, quanta_eq_zero_iff.mpr ha, Nat.zero_mul, roundLane_zero]

/-- A positive finite factor leaves a zero as it is. -/
theorem fmul_positive_of_isZero (ha : isZero F a = true) (hb : isFinite F b = true) (hs : signbit F b = false) :
    fmul F a b = a := by
  rw [fmul_of_isZero_left ha hb, hs, Bool.xor_false, ← eq_zero_of_isZero ha]

/-- A positive finite factor leaves an infinity as it is. -/
theorem fmul_positive_of_isInf (ha : isInf F a = true) (hb : isFinite F b = true) (hz : isZero F b = false)
    (hs : signbit F b = false) : fmul F a b = a := by
  rw [fmul_of_isInf_left ha (not_isNaN_of_isFinite hb) hz, hs, Bool.xor_false, ← eq_infinity_of_isInf ha]

end lanes

/-! ### The constants of the two rules (R44) -/

section constants

variable (F : Fmt)

theorem cTwoPi_positive : isFinite F (cTwoPi F) = true ∧ isZero F (cTwoPi F) = false ∧ signbit F (cTwoPi F) = false :=
  ⟨(normalLane_twoPi F).isFinite, by cases F <;> decide, (normalLane_twoPi F).sign⟩

theorem cOneOverTwoPi_positive :
    isFinite F (cOneOverTwoPi F) = true ∧ isZero F (cOneOverTwoPi F) = false ∧ signbit F (cOneOverTwoPi F) = false :=
  ⟨(normalLane_oneOverTwoPi F).isFinite, by cases F <;> decide, (normalLane_oneOverTwoPi F).sign⟩

theorem magnitude_halfPi_lt_pi : magnitude F (cHalfPi F) < magnitude F (cPi F) := by cases F <;> decide

theorem magnitude_halfPi_lt_infMagnitude : magnitude F (cHalfPi F) < infMagnitude F := by cases F <;> decide

/-- The magnitude pattern of 1/2. -/
def halfMagnitude : Nat := (F.bias - 1) * 2 ^ F.fracBits

/-- ±π · 1/2π rounds to exactly ±1/2 (R173). -/
theorem fmul_pi_oneOverTwoPi (s : Bool) :
    fmul F (pack F s (magnitude F (cPi F))) (cOneOverTwoPi F) = pack F s (halfMagnitude F) := by
  cases F <;> cases s <;> decide +kernel

/-- The tie at ±1/2 goes to the even integer 0 (R107). -/
theorem rintEven_half (s : Bool) : rintEven F (pack F s (halfMagnitude F)) = zero F s := by
  cases F <;> cases s <;> decide +kernel

end constants

/-! ### MOD2PI (R173) -/

section mod2pi

variable {F : Fmt} {x : Lane F}

theorem mod2PiLane_eq (F : Fmt) (x : Lane F) :
    mod2PiLane F x = fsub F x (fmul F (rintEven F (fmul F x (cOneOverTwoPi F))) (cTwoPi F)) := rfl

theorem mod2PiLane_of_isNaN (h : isNaN F x = true) : mod2PiLane F x = quiet F x := fsub_of_isNaN_left h _

/-- A zero is its own multiple of 2π, so it is taken from itself. -/
theorem mod2PiLane_of_isZero (h : isZero F x = true) : mod2PiLane F x = zero F false := by
  obtain ⟨hfin, -, hs⟩ := cOneOverTwoPi_positive F
  obtain ⟨hfin', -, hs'⟩ := cTwoPi_positive F
  rw [mod2PiLane_eq, fmul_positive_of_isZero h hfin hs, rintEven, rintWith_of_isZero _ h,
    fmul_positive_of_isZero h hfin' hs', fsub_self_of_isFinite (isFinite_of_isZero h)]

/-- An infinity is taken from itself too, which is invalid. -/
theorem mod2PiLane_of_isInf (h : isInf F x = true) : mod2PiLane F x = defaultNaN F := by
  obtain ⟨hfin, hz, hs⟩ := cOneOverTwoPi_positive F
  obtain ⟨hfin', hz', hs'⟩ := cTwoPi_positive F
  rw [mod2PiLane_eq, fmul_positive_of_isInf h hfin hz hs, rintEven, rintWith_of_isInf _ h,
    fmul_positive_of_isInf h hfin' hz' hs', fsub_self_of_isInf h]

/-- A lane whose quotient rounds to 0 is its own remainder. -/
theorem mod2PiLane_of_quotient_zero (hx : isFinite F x = true) (hz : isZero F x = false)
    (hq : isZero F (rintEven F (fmul F x (cOneOverTwoPi F))) = true) : mod2PiLane F x = x := by
  obtain ⟨hfin, -, hs⟩ := cTwoPi_positive F
  rw [mod2PiLane_eq, fmul_positive_of_isZero hq hfin hs, fsub_of_isZero_right hx hz hq]

/-- π and -π are the ends of the window, and stay (R173). -/
theorem mod2PiLane_of_magnitude_pi (h : magnitude F x = magnitude F (cPi F)) : mod2PiLane F x = x := by
  have hx : isFinite F x = true := by
    rw [isFinite, h]
    exact (normalLane_pi F).isFinite
  have hz : isZero F x = false := by
    rw [isZero, h]
    cases F <;> decide
  have hq : rintEven F (fmul F x (cOneOverTwoPi F)) = zero F (signbit F x) := by
    rw [← pack_signbit_magnitude F x, h, fmul_pi_oneOverTwoPi, rintEven_half, ← h, pack_signbit_magnitude]
  exact mod2PiLane_of_quotient_zero hx hz (by rw [hq, isZero_zero])

end mod2pi

/-! ### FOLD (R175) -/

section fold

variable {F : Fmt} {a : Lane F}

/-- π with the sign of `a` (step 2 of R175). -/
def signedPi (F : Fmt) (a : Lane F) : Lane F := pack F (signbit F a) (magnitude F (cPi F))

@[simp] theorem magnitude_signedPi : magnitude F (signedPi F a) = magnitude F (cPi F) :=
  magnitude_pack _ (magnitude_lt F _)

@[simp] theorem signbit_signedPi : signbit F (signedPi F a) = signbit F a := signbit_pack _ (magnitude_lt F _)

theorem isFinite_signedPi : isFinite F (signedPi F a) = true := by
  rw [isFinite, magnitude_signedPi]
  exact (normalLane_pi F).isFinite

/-- Steps 1 and 2 of R175: `a`'s sign bit on ABS of π. -/
theorem signMask_or_absLane_pi (F : Fmt) (a : Lane F) :
    a &&& cSignMask F ||| absLane F (cPi F) = signedPi F a := by
  have hpos : signbit F (cPi F) = false := (normalLane_pi F).sign
  apply lane_ext <;> simp [cSignMask_eq_zero, hpos]

/-- `Fold_F` with its masks read as choices. -/
theorem foldLane_eq (F : Fmt) (a : Lane F) :
    foldLane F a =
      (if fle F (pack F false (magnitude F a)) (cHalfPi F) = true then a else fsub F (signedPi F a) a,
        if fle F (pack F false (magnitude F a)) (cHalfPi F) = true then cOne F else cNegOne F) := by
  simp only [foldLane, sel_mask, and_signClear, signMask_or_absLane_pi]

/-- The range test of step 5 compares magnitudes; a NaN's is above every number's. -/
theorem fle_halfPi_iff (F : Fmt) (a : Lane F) :
    fle F (pack F false (magnitude F a)) (cHalfPi F) = true ↔ magnitude F a ≤ magnitude F (cHalfPi F) := by
  have hfin := magnitude_halfPi_lt_infMagnitude F
  have hpos : signbit F (cHalfPi F) = false := (normalLane_halfPi F).sign
  rw [fle_iff, orderKey, orderKey, isNaN, isNaN, hpos, signbit_pack _ (magnitude_lt F a),
    magnitude_pack _ (magnitude_lt F a)]
  simp only [Bool.false_eq_true, if_false, decide_eq_false_iff_not, not_lt, Nat.cast_le]
  omega

theorem foldLane_of_inRange (h : magnitude F a ≤ magnitude F (cHalfPi F)) : foldLane F a = (a, cOne F) := by
  have hin := (fle_halfPi_iff F a).mpr h
  rw [foldLane_eq, if_pos hin, if_pos hin]

theorem foldLane_of_outOfRange (h : magnitude F (cHalfPi F) < magnitude F a) :
    foldLane F a = (fsub F (signedPi F a) a, cNegOne F) := by
  have hout : ¬ fle F (pack F false (magnitude F a)) (cHalfPi F) = true := by
    rw [fle_halfPi_iff]
    exact not_le.mpr h
  rw [foldLane_eq, if_neg hout, if_neg hout]

/-- A lane at ±π is reflected onto itself, less itself. -/
theorem foldLane_of_magnitude_pi (h : magnitude F a = magnitude F (cPi F)) :
    foldLane F a = (zero F false, cNegOne F) := by
  have hself : signedPi F a = a := by rw [signedPi, ← h, pack_signbit_magnitude]
  have hdiff := fsub_self_of_isFinite (isFinite_signedPi (a := a))
  rw [foldLane_of_outOfRange (h ▸ magnitude_halfPi_lt_pi F)]
  rw [hself] at hdiff ⊢
  rw [hdiff]

theorem foldLane_of_isNaN (h : isNaN F a = true) : foldLane F a = (quiet F a, cNegOne F) := by
  have hout : magnitude F (cHalfPi F) < magnitude F a :=
    (magnitude_halfPi_lt_infMagnitude F).trans (by simpa [isNaN] using h)
  rw [foldLane_of_outOfRange hout, fsub_of_isNaN_right (not_isNaN_of_isFinite isFinite_signedPi) h]

theorem foldLane_of_isInf (h : isInf F a = true) : foldLane F a = (infinity F (!signbit F a), cNegOne F) := by
  have hmag : magnitude F a = infMagnitude F := by simpa [isInf] using h
  rw [foldLane_of_outOfRange (hmag ▸ magnitude_halfPi_lt_infMagnitude F), fsub_of_isInf_right isFinite_signedPi h]

end fold

/-- Settles O54. -/
theorem reductionCorners : Obligations.ReductionCorners := by
  unfold Obligations.ReductionCorners
  exact fun F x => ⟨mod2PiLane_of_isZero, mod2PiLane_of_isInf, mod2PiLane_of_isNaN, mod2PiLane_of_magnitude_pi rfl,
    mod2PiLane_of_magnitude_pi (magnitude_flipSign F _), foldLane_of_inRange, foldLane_of_magnitude_pi,
    foldLane_of_isNaN, foldLane_of_isInf⟩

/-- Settles O35: MOD2PI answers with its lane function, FOLD with both parts of its pair. -/
theorem reductionResult : Obligations.ReductionResult := by
  unfold Obligations.ReductionResult
  intro F s
  refine ⟨(completes_of_answerUnary (exec_mod2pi s F)).congr (fun j => mod2PiLane_eq F _) fun _ => rfl,
    (completes_of_answer2 (exec_fold s F)).congr (fun j => ?_) fun j => ?_⟩
  · rw [Lanes.map_get, opA_get, foldLane_eq]
    rfl
  · rw [Lanes.map_get, opA_get, foldLane_eq]
    rfl

end Sys2Proof.Machine
end

section
/-!
PROOFS of 43_sincos.md, the tiers and the corner cases (R191 to R196, R199). An absent approximate table leaves the choice
of table at the precise one (R192, R214, R231). At a zero every finite table evaluates to its leading 1, and at a NaN
every one gives that NaN, quieted (R171); with the corner cases of the reduction and of the fold, these are the corner
cases of the sine and the cosine.
-/

namespace Sys2Proof.Machine

set_option Elab.async false

/-! ### An absent table (R192, R214, R231) -/

section absent

variable {F : Fmt} {r : CoefRom F} (cap : BitVec 3) (apx : Bool)

theorem sinTable_of_absent (h : tablePresent r .sinA = false) : sinTable r apx = .sinP := by
  simp [sinTable, h]

theorem cosTable_of_absent (h : tablePresent r .cosA = false) : cosTable r apx = .cosP := by
  simp [cosTable, h]

theorem atanTable_of_absent (h : tablePresent r .atanA = false) : atanTable r apx = .atanP := by
  simp [atanTable, h]

theorem sinLane_of_absent (h : tablePresent r .sinA = false) : sinLane F cap r apx = sinLane F cap r false := by
  funext x
  simp only [sinLane_eq, sinTable_of_absent _ h]

theorem cosLane_of_absent (h : tablePresent r .cosA = false) : cosLane F cap r apx = cosLane F cap r false := by
  funext x
  simp only [cosLane_eq, cosTable_of_absent _ h]

theorem atanOf_of_absent (fu : Bool) (h : tablePresent r .atanA = false) (x : Lane F) :
    atanOf F fu r apx x = atanOf F fu r false x := by
  simp only [atanOf_eq, atanTable_of_absent _ h]

theorem atanLane_of_absent (h : tablePresent r .atanA = false) : atanLane F cap r apx = atanLane F cap r false :=
  funext (atanOf_of_absent apx _ h)

theorem atan2Lane_of_absent (h : tablePresent r .atanA = false) :
    atan2Lane F cap r apx = atan2Lane F cap r false := by
  funext y x
  simp only [atan2Lane, atan2Of, atan2General, atanOf_of_absent apx _ h]

/-- TANAPPROX has a form of its own only on the fast path and with its table present (R214, R216). -/
theorem tanApproxLane_eq_tanLane (h : fast F cap = false ∨ tablePresent r .tanA = false) :
    tanApproxLane F cap r = tanLane F cap r := by
  funext x
  obtain h | h := h <;> simp [tanApproxLane, tanLane, h]

end absent

/-- Settles O26: a lane function that does not depend on the tier gives the same answer in both. -/
theorem tiersDegrade : Obligations.TiersDegrade := by
  unfold Obligations.TiersDegrade
  refine ⟨fun F s sb => ⟨fun hsin => ?_, fun hcos => ?_, fun hsin hcos => ?_, fun htan => ?_, fun hatan => ⟨?_, ?_⟩⟩,
    rfl, rfl, rfl, rfl⟩
  · exact sameAnswer_answerUnary rfl (sinLane_of_absent s.cap true hsin)
  · exact sameAnswer_answerUnary rfl (cosLane_of_absent s.cap true hcos)
  · exact sameAnswer_answer2 s s (by rw [sinLane_of_absent s.cap true hsin])
      (by rw [cosLane_of_absent s.cap true hcos])
  · exact sameAnswer_answerUnary rfl (tanApproxLane_eq_tanLane s.cap htan)
  · exact sameAnswer_answerUnary rfl (atanLane_of_absent s.cap true hatan)
  · exact sameAnswer_answerBinary rfl rfl (atan2Lane_of_absent s.cap true hatan)

/-- Settles O27: the three commands answer with the same two lane functions (R199). -/
theorem sincosAgrees : Obligations.SincosAgrees := by
  unfold Obligations.SincosAgrees
  exact fun F apx s => ⟨_, _, _, exec_sincos s F apx, exec_sin s F apx, exec_cos s F apx, rfl, rfl, rfl, rfl, rfl⟩

/-! ### The special values of the reference functions (R194) -/

section specials

variable {F : Fmt} {x : Lane F}

theorem refSin_of_isZero (h : isZero F x = true) : refSin F x = x := by
  simp [refSin, not_isNaN_of_isZero h, not_isInf_of_isZero h, h]

theorem refCos_of_isZero (h : isZero F x = true) : refCos F x = cOne F := by
  simp [refCos, not_isNaN_of_isZero h, not_isInf_of_isZero h, h]

theorem refSin_of_isInf (h : isInf F x = true) : refSin F x = defaultNaN F := by
  simp [refSin, not_isNaN_of_isInf h, h]

theorem refCos_of_isInf (h : isInf F x = true) : refCos F x = defaultNaN F := by
  simp [refCos, not_isNaN_of_isInf h, h]

theorem refSin_of_isNaN (h : isNaN F x = true) : refSin F x = quiet F x := by rw [refSin, if_pos h]

theorem refCos_of_isNaN (h : isNaN F x = true) : refCos F x = quiet F x := by rw [refCos, if_pos h]

end specials

/-- Settles O52. -/
theorem referenceSpecials : Obligations.ReferenceSpecials := by
  unfold Obligations.ReferenceSpecials
  exact fun F x => ⟨fun h => ⟨refSin_of_isZero h, refCos_of_isZero h⟩, fun h => ⟨refSin_of_isInf h, refCos_of_isInf h⟩,
    fun h => ⟨refSin_of_isNaN h, refCos_of_isNaN h⟩⟩

/-! ### `MulAdd` and the polynomials at a zero (R103, R170, R171) -/

section zeros

variable {F : Fmt} {a x c : Lane F} {fu : Bool} {r : CoefRom F}

theorem signedQuanta_eq_zero_iff : signedQuanta F x = 0 ↔ isZero F x = true := by
  unfold signedQuanta
  split <;> simp [quanta_eq_zero_iff]

theorem signedQuanta_of_isZero (hx : isZero F x = true) : signedQuanta F x = 0 := signedQuanta_eq_zero_iff.mpr hx

/-- The value of a lane that is no zero is rounded to the lane, whatever the unit it is counted in. -/
theorem roundLane_signedQuanta (hc : isFinite F c = true) (hz : isZero F c = false) {d : ℕ} (hd : 0 < d) :
    roundLane F (decide (signedQuanta F c * d < 0)) (signedQuanta F c * d).natAbs d = c := by
  have hpos : 0 < quanta F c := quanta_pos hz
  have hscale : (signedQuanta F c * d).natAbs = d * quanta F c := by
    rw [Int.natAbs_mul, Int.natAbs_natCast, Nat.mul_comm]
    unfold signedQuanta
    split <;> simp
  have hsign : decide (signedQuanta F c * d < 0) = signbit F c := by
    cases hs : signbit F c <;> simp [signedQuanta, hs, hpos, hd]
  have hround := roundLane_mul_left F (signbit F c) (quanta F c) 1 hd
  rw [Nat.mul_one] at hround
  rw [hscale, hsign, hround, roundLane_quanta hc, pack_signbit_magnitude]

/-- A finite lane times a zero, plus `c`: fused or not, the sum has `c`'s quanta in some unit. -/
theorem mulAdd_of_isZero (ha : isFinite F a = true) (hx : isZero F x = true) (hc : isFinite F c = true) :
    ∃ (s : Bool) (d : ℕ), 0 < d ∧ mulAdd F fu a x c =
      if signedQuanta F c * d = 0 then zero F s
      else roundLane F (decide (signedQuanta F c * d < 0)) (signedQuanta F c * d).natAbs d := by
  have hxf := isFinite_of_isZero hx
  refine ⟨(signbit F a ^^ signbit F x) && signbit F c, ?_⟩
  cases fu
  · have hprod : fmul F a x = zero F (signbit F a ^^ signbit F x) := by
      rw [fmul_of_isFinite ha hxf, quanta_eq_zero_iff.mpr hx, Nat.mul_zero, roundLane_zero]
    refine ⟨1, one_pos, ?_⟩
    rw [mulAdd_eq, if_neg Bool.false_ne_true, hprod, fadd_of_isFinite (isFinite_of_isZero (isZero_zero F _)) hc,
      signedQuanta_of_isZero (isZero_zero F _), zero_add, Nat.cast_one, mul_one, signbit_zero]
  · refine ⟨2 ^ quantumExp F, Nat.two_pow_pos _, ?_⟩
    rw [mulAdd_eq, if_pos rfl, ffma_of_isFinite ha hxf hc, signedQuanta_of_isZero hx, mul_zero, zero_add, Nat.cast_pow,
      Nat.cast_ofNat]

/-- It is `c`, where `c` is no zero. -/
theorem mulAdd_eq_addend (ha : isFinite F a = true) (hx : isZero F x = true) (hc : isFinite F c = true)
    (hz : isZero F c = false) : mulAdd F fu a x c = c := by
  obtain ⟨s, d, hd, h⟩ := mulAdd_of_isZero (fu := fu) ha hx hc
  have hne : signedQuanta F c * d ≠ 0 :=
    mul_ne_zero (fun h0 => by simp [signedQuanta_eq_zero_iff.mp h0] at hz) (by exact_mod_cast hd.ne')
  rw [h, if_neg hne, roundLane_signedQuanta hc hz hd]

theorem isFinite_mulAdd_zero (ha : isFinite F a = true) (hx : isZero F x = true) (hc : isFinite F c = true) :
    isFinite F (mulAdd F fu a x c) = true := by
  cases hz : isZero F c
  · rwa [mulAdd_eq_addend ha hx hc hz]
  · obtain ⟨s, d, -, h⟩ := mulAdd_of_isZero (fu := fu) ha hx hc
    rw [h, signedQuanta_of_isZero hz, zero_mul, if_pos rfl]
    exact isFinite_of_isZero (isZero_zero F s)

/-- Every Horner step at a zero is finite. -/
theorem isFinite_hornerSteps (hr : FiniteRom r) (t : TableId) (hx : isZero F x = true) (n : ℕ)
    (ha : isFinite F a = true) : isFinite F (hornerSteps F fu r t x n a) = true := by
  induction n generalizing a with
  | zero => exact ha
  | succ n ih => exact ih (isFinite_mulAdd_zero ha hx (hr t n))

/-- A polynomial of finite coefficients is its leading 1 at a zero. -/
theorem poly1_of_isZero (hr : FiniteRom r) (t : TableId) (hx : isZero F x = true) : poly1 F fu r t x = cOne F :=
  mulAdd_eq_addend (isFinite_hornerSteps hr t hx _ (hr t _)) hx (isFinite_cOne F) (isZero_cOne F)

end zeros

/-! ### `MulAdd` and the polynomials at a NaN (R105, R170, R171) -/

section nans

variable {F : Fmt} {a x : Lane F} {fu : Bool} {r : CoefRom F}

/-- The NaN is returned quieted, when the accumulator is a number or that NaN already. -/
theorem mulAdd_of_isNaN (ha : isNaN F a = false ∨ a = quiet F x) (hx : isNaN F x = true) (c : Lane F) :
    mulAdd F fu a x c = quiet F x := by
  have hq := isNaN_quiet x hx
  have hprod : fmul F a x = quiet F x ∧ ffma F a x c = quiet F x := by
    obtain ha | rfl := ha
    · exact ⟨fmul_of_isNaN_right ha hx, ffma_of_isNaN_middle ha hx c⟩
    · rw [fmul_of_isNaN_left hq, ffma_of_isNaN_left hq, quiet_quiet]
      exact ⟨rfl, rfl⟩
  rw [mulAdd_eq, hprod.1, hprod.2, fadd_of_isNaN_left hq, quiet_quiet, ite_self]

theorem hornerSteps_of_isNaN (t : TableId) (hx : isNaN F x = true) (n : ℕ)
    (ha : isNaN F a = false ∨ a = quiet F x) :
    isNaN F (hornerSteps F fu r t x n a) = false ∨ hornerSteps F fu r t x n a = quiet F x := by
  induction n generalizing a with
  | zero => exact ha
  | succ n ih => exact ih (.inr (mulAdd_of_isNaN ha hx _))

theorem poly1_of_isNaN (hr : FiniteRom r) (t : TableId) (hx : isNaN F x = true) : poly1 F fu r t x = quiet F x :=
  mulAdd_of_isNaN (hornerSteps_of_isNaN t hx _ (.inl (not_isNaN_of_isFinite (hr t _)))) hx _

end nans

/-! ### The pipeline on a folded zero and on a folded NaN (R190) -/

section pipeline

variable {F : Fmt} {cap : BitVec 3} {k : CoefRom F} (apx : Bool) {x f u : Lane F} (hfast : fast F cap = true)
  (hk : FiniteRom k)

theorem fmul_cOne_left (hx : isFinite F x = true) : fmul F (cOne F) x = x := by
  rw [fmul_of_quanta_one (isFinite_cOne F) (normalLane_one F).quanta_one hx, cOne, (normalLane_one F).sign,
    Bool.false_xor, pack_signbit_magnitude]

include hfast hk

/-- Both polynomials are 1, so the sine is the zero and the cosine the cosine sign. -/
theorem sinCosLane_of_fold_zero (hf : foldLane F (mod2PiLane F x) = (f, u)) (hz : isZero F f = true)
    (hu : isFinite F u = true) : sinLane F cap k apx x = f ∧ cosLane F cap k apx x = u := by
  have hfin := isFinite_of_isZero hz
  have hsq : isZero F (fmul F f f) = true := by rw [fmul_of_isZero_left hz hfin, isZero_zero]
  simp only [sinLane_eq, cosLane_eq, hfast, if_true, hf, poly1_of_isZero hk _ hsq, fmul_cOne_left hfin,
    fmul_cOne_left hu, and_self]

/-- Both polynomials are the NaN, quieted, and so are both products. -/
theorem sinCosLane_of_fold_nan (hf : foldLane F (mod2PiLane F x) = (f, u)) (hn : isNaN F f = true) :
    sinLane F cap k apx x = quiet F f ∧ cosLane F cap k apx x = quiet F f := by
  have hq := isNaN_quiet f hn
  simp only [sinLane_eq, cosLane_eq, hfast, if_true, hf, fmul_of_isNaN_left hn, poly1_of_isNaN hk _ hq, quiet_quiet,
    fmul_of_isNaN_left hq, and_self]

end pipeline

/-- Settles O55, by what the reduction and the fold make of each corner case. -/
theorem sinCosCorners : Obligations.SinCosCorners := by
  unfold Obligations.SinCosCorners
  refine fun F cap k apx x hfast hk => ⟨fun hx => ?_, fun hx => ?_, fun hx => ?_, ?_⟩
  · have hle : magnitude F (zero F false) ≤ magnitude F (cHalfPi F) := by simp
    have hfold : foldLane F (mod2PiLane F x) = (zero F false, cOne F) := by
      rw [mod2PiLane_of_isZero hx, foldLane_of_inRange hle]
    exact sinCosLane_of_fold_zero apx hfast hk hfold (isZero_zero F _) (isFinite_cOne F)
  · have hfold : foldLane F (mod2PiLane F x) = (defaultNaN F, cNegOne F) := by
      rw [mod2PiLane_of_isInf hx, foldLane_of_isNaN (isNaN_defaultNaN F), quiet_defaultNaN]
    have h := sinCosLane_of_fold_nan apx hfast hk hfold (isNaN_defaultNaN F)
    rwa [quiet_defaultNaN] at h
  · have hq := isNaN_quiet x hx
    have hfold : foldLane F (mod2PiLane F x) = (quiet F x, cNegOne F) := by
      rw [mod2PiLane_of_isNaN hx, foldLane_of_isNaN hq, quiet_quiet]
    have h := sinCosLane_of_fold_nan apx hfast hk hfold hq
    rwa [quiet_quiet] at h
  · have hfold : foldLane F (mod2PiLane F (cPi F)) = (zero F false, cNegOne F) := by
      rw [mod2PiLane_of_magnitude_pi rfl, foldLane_of_magnitude_pi rfl]
    exact sinCosLane_of_fold_zero apx hfast hk hfold (isZero_zero F _) (normalLane_negOne F).isFinite

end Sys2Proof.Machine
end

section
/-!
PROOFS of 43_sincos.md, the bound on the reference functions (R193). The fixed-point sine and cosine by which the model
measures are within 203 units of `2 ^ -320` of the exact ones: the constant for π/2 is right by Machin's formula, the
reduction by multiples of it leaves an angle below 1, 41 terms of each series leave out less than a unit, and each term
is off by less than 5. The margin of `withinBound` is larger than that, and a correctly rounded value is off by no more
than half a last place besides.
-/

namespace Sys2Proof.Machine

open Finset

set_option Elab.async false

/-! ### The alternating series of sine, cosine and arctangent, cut off -/

section series

variable {x : ℝ}

/-- A term of the sine's series (`b = 1`) or of the cosine's (`b = 0`), without its alternating sign. -/
noncomputable def powerTerm (b : ℕ) (x : ℝ) (j : ℕ) : ℝ := x ^ (2 * j + b) / (2 * j + b).factorial

/-- The first `n` terms of either. -/
noncomputable def powerSum (b : ℕ) (x : ℝ) (n : ℕ) : ℝ := ∑ j ∈ range n, (-1) ^ j * powerTerm b x j

theorem antitone_powerTerm (b : ℕ) (h0 : 0 ≤ x) (h1 : x ≤ 1) : Antitone (powerTerm b x) := by
  intro i j hij
  have hexp : 2 * i + b ≤ 2 * j + b := by omega
  exact div_le_div₀ (pow_nonneg h0 _) (pow_le_pow_of_le_one h0 h1 hexp) (by positivity)
    (by exact_mod_cast Nat.factorial_le hexp)

theorem summable_powerTerm (b : ℕ) (x : ℝ) : Summable (powerTerm b x) :=
  (Real.summable_pow_div_factorial x).comp_injective (i := fun j => 2 * j + b) fun i j h => by simpa using h

theorem powerTerm_le (b : ℕ) (h0 : 0 ≤ x) (h1 : x ≤ 1) (n : ℕ) : powerTerm b x n ≤ 1 / (2 * n + b).factorial :=
  div_le_div_of_nonneg_right (pow_le_one₀ h0 h1) (by positivity)

theorem abs_tsum_sub_powerSum_le (b : ℕ) (h0 : 0 ≤ x) (h1 : x ≤ 1) (n : ℕ) :
    |∑' j, (-1) ^ j * powerTerm b x j - powerSum b x n| ≤ 1 / (2 * n + b).factorial :=
  (alternating_series_error_bound _ (antitone_powerTerm b h0 h1) (summable_powerTerm b x) n).trans
    (powerTerm_le b h0 h1 n)

theorem abs_cos_sub_powerSum_le (hx : |x| ≤ 1) (n : ℕ) :
    |Real.cos x - powerSum 0 x n| ≤ 1 / (2 * n).factorial := by
  have hterm : powerTerm 0 |x| = powerTerm 0 x := by
    funext j
    simp [powerTerm, pow_mul]
  have hsum : powerSum 0 |x| n = powerSum 0 x n := by simp only [powerSum, hterm]
  have h := abs_tsum_sub_powerSum_le 0 (abs_nonneg x) hx n
  rw [hterm, hsum] at h
  rw [Real.cos_eq_tsum]
  simpa only [powerTerm, mul_div_assoc, Nat.add_zero] using h

theorem powerSum_one_neg (x : ℝ) (n : ℕ) : powerSum 1 (-x) n = -powerSum 1 x n := by
  simp only [powerSum, powerTerm, Odd.neg_pow (odd_two_mul_add_one _), neg_div, mul_neg, sum_neg_distrib]

theorem abs_sin_sub_powerSum_le (hx : |x| ≤ 1) (n : ℕ) :
    |Real.sin x - powerSum 1 x n| ≤ 1 / (2 * n + 1).factorial := by
  have hpos : ∀ {y : ℝ}, 0 ≤ y → y ≤ 1 → |Real.sin y - powerSum 1 y n| ≤ 1 / (2 * n + 1).factorial := by
    intro y h0 h1
    rw [Real.sin_eq_tsum]
    simpa only [powerTerm, mul_div_assoc] using abs_tsum_sub_powerSum_le 1 h0 h1 n
  obtain ⟨hlo, hhi⟩ := abs_le.mp hx
  obtain h0 | h0 := le_total 0 x
  · exact hpos h0 hhi
  · have h := hpos (neg_nonneg.mpr h0) (by linarith)
    rwa [Real.sin_neg, powerSum_one_neg, ← neg_sub', abs_neg] at h

/-- The first `n` terms of the arctangent's series. -/
noncomputable def arctanSum (x : ℝ) (n : ℕ) : ℝ := ∑ j ∈ range n, (-1) ^ j * (x ^ (2 * j + 1) / (2 * j + 1))

theorem abs_arctan_sub_arctanSum_le (h0 : 0 ≤ x) (h1 : x < 1) (n : ℕ) :
    |Real.arctan x - arctanSum x n| ≤ x ^ (2 * n + 1) := by
  have hanti : Antitone fun j : ℕ => x ^ (2 * j + 1) / (2 * j + 1) := fun i j hij =>
    div_le_div₀ (pow_nonneg h0 _) (pow_le_pow_of_le_one h0 h1.le (by omega)) (by positivity) (by gcongr)
  have hterm : ∀ j : ℕ, x ^ (2 * j + 1) / (2 * j + 1) ≤ x ^ (2 * j + 1) := fun j =>
    div_le_self (pow_nonneg h0 _) (by simp)
  have hsum : Summable fun j : ℕ => x ^ (2 * j + 1) / (2 * j + 1) :=
    Summable.of_nonneg_of_le (fun j => by positivity)
      (fun j => (hterm j).trans (pow_le_pow_of_le_one h0 h1.le (by omega))) (summable_geometric_of_lt_one h0 h1)
  have htsum : ∑' j : ℕ, (-1) ^ j * (x ^ (2 * j + 1) / (2 * j + 1)) = Real.arctan x := by
    rw [← (Real.hasSum_arctan (by rwa [Real.norm_of_nonneg h0])).tsum_eq]
    push_cast
    simp only [mul_div_assoc]
  have h := alternating_series_error_bound _ hanti hsum n
  rw [htsum] at h
  exact h.trans (hterm n)

end series

/-! ### π/2 with `halfPiBits` fraction bits, by Machin's formula -/

/-- Integer division is the quotient, less than 1 below. -/
theorem abs_ediv_sub_le (a : ℤ) {b : ℤ} (hb : 0 < b) : |((a / b : ℤ) : ℝ) - a / b| ≤ 1 := by
  have hbR : (0 : ℝ) < b := by exact_mod_cast hb
  have hsplit : (a : ℝ) = b * (a / b : ℤ) + (a % b : ℤ) := by exact_mod_cast (Int.mul_ediv_add_emod a b).symm
  have hlo : (0 : ℝ) ≤ (a % b : ℤ) := by exact_mod_cast Int.emod_nonneg a hb.ne'
  have hhi : ((a % b : ℤ) : ℝ) ≤ b := by exact_mod_cast (Int.emod_lt_of_pos a hb).le
  rw [hsplit, add_div, mul_div_cancel_left₀ _ hbR.ne', sub_add_cancel_left, abs_neg, abs_of_nonneg (by positivity)]
  exact (div_le_one hbR).mpr hhi

/-- The first `n` terms of arctan(1/m), each with `halfPiBits` fraction bits, rounded down. -/
def arctanInvFixed (m n : ℕ) : ℤ := ∑ j ∈ range n, (-1) ^ j * (2 ^ halfPiBits / ((2 * j + 1) * m ^ (2 * j + 1)))

/-- Each term is off by less than 1. -/
theorem arctanInvFixed_near_arctanSum {m : ℕ} (hm : 0 < m) (n : ℕ) :
    |(arctanInvFixed m n : ℝ) - arctanSum (m : ℝ)⁻¹ n * 2 ^ halfPiBits| ≤ n := by
  rw [arctanInvFixed, arctanSum, Int.cast_sum, sum_mul, ← sum_sub_distrib]
  refine (abs_sum_le_sum_abs _ _).trans ((sum_le_card_nsmul _ _ 1 fun j _ => ?_).trans (by simp))
  have hfloor := abs_ediv_sub_le (2 ^ halfPiBits) (b := (2 * j + 1) * m ^ (2 * j + 1)) (by positivity)
  have hterm : (m : ℝ)⁻¹ ^ (2 * j + 1) / (2 * j + 1) * 2 ^ halfPiBits =
      (2 ^ halfPiBits : ℤ) / ((2 * j + 1) * m ^ (2 * j + 1) : ℤ) := by
    push_cast
    rw [inv_pow]
    field_simp
  rw [Int.cast_mul, mul_assoc, hterm, Int.cast_pow, Int.cast_neg, Int.cast_one, ← mul_sub, abs_mul, abs_pow, abs_neg,
    abs_one, one_pow, one_mul]
  exact hfloor

theorem arctanInvFixed_near {m n : ℕ} (hm : 1 < m) (hn : 2 ^ halfPiBits ≤ m ^ (2 * n + 1)) :
    |(arctanInvFixed m n : ℝ) - Real.arctan (m : ℝ)⁻¹ * 2 ^ halfPiBits| ≤ n + 1 := by
  have hm1 : (1 : ℝ) < m := by exact_mod_cast hm
  have hu : (0 : ℝ) < 2 ^ halfPiBits := by positivity
  have hlast : (m : ℝ)⁻¹ ^ (2 * n + 1) * 2 ^ halfPiBits ≤ 1 := by
    rw [inv_pow, inv_mul_le_one₀ (by positivity)]
    exact_mod_cast hn
  have hcut : |arctanSum (m : ℝ)⁻¹ n * 2 ^ halfPiBits - Real.arctan (m : ℝ)⁻¹ * 2 ^ halfPiBits| ≤ 1 := by
    rw [← sub_mul, abs_mul, abs_of_pos hu, abs_sub_comm]
    have h := abs_arctan_sub_arctanSum_le (inv_nonneg.mpr m.cast_nonneg) (inv_lt_one_of_one_lt₀ hm1) n
    exact (mul_le_mul_of_nonneg_right h hu.le).trans hlast
  exact (abs_sub_le _ _ _).trans (add_le_add (arctanInvFixed_near_arctanSum (by omega) n) hcut)

/-- Machin's formula with 310 terms of each series is the constant, but for the last bits. -/
theorem machin_near_halfPiFixed :
    |2 * (4 * arctanInvFixed 5 310 - arctanInvFixed 239 310) - (halfPiFixed : ℤ)| ≤ 2 ^ 10 := by
  decide +kernel

/-- The reduction's constant is π/2, but for the last bits. -/
theorem halfPiFixed_near : |(halfPiFixed : ℝ) - Real.pi / 2 * 2 ^ halfPiBits| ≤ 2 ^ 13 := by
  have h5 : |(arctanInvFixed 5 310 : ℝ) - Real.arctan 5⁻¹ * 2 ^ halfPiBits| ≤ 310 + 1 := by
    exact_mod_cast arctanInvFixed_near (m := 5) (n := 310) (by decide) (by decide +kernel)
  have h239 : |(arctanInvFixed 239 310 : ℝ) - Real.arctan 239⁻¹ * 2 ^ halfPiBits| ≤ 310 + 1 := by
    exact_mod_cast arctanInvFixed_near (m := 239) (n := 310) (by decide) (by decide +kernel)
  have hmachin : |2 * (4 * (arctanInvFixed 5 310 : ℝ) - arctanInvFixed 239 310) - halfPiFixed| ≤ 2 ^ 10 := by
    exact_mod_cast machin_near_halfPiFixed
  have hpi : Real.pi / 2 = 2 * (4 * Real.arctan 5⁻¹ - Real.arctan 239⁻¹) := by
    rw [Real.four_mul_arctan_inv_5_sub_arctan_inv_239]
    ring
  rw [abs_le] at h5 h239 hmachin ⊢
  rw [hpi]
  constructor <;> linarith

/-! ### The series of the reduced angle in fixed point -/

/-- The next term of `seriesSum`: two divisions, each rounded down. -/
def nextTerm (r2 i term : ℤ) : ℤ := -(term * r2) / 2 ^ trigBits / (i * (i + 1))

theorem seriesSum_succ (r2 : ℤ) (fuel : ℕ) (i term acc : ℤ) :
    seriesSum r2 (fuel + 1) i term acc =
      seriesSum r2 fuel (i + 2) (nextTerm r2 i term) (acc + nextTerm r2 i term) := rfl

theorem two_pow_trigBits_large : (2 : ℝ) ^ 30 ≤ 2 ^ trigBits := pow_le_pow_right₀ one_le_two (by decide)

section series

variable {r2 i term : ℤ} {q e : ℝ}

/-- Where `r2` is `q` in fixed point and the term is within 5 of an exact one, the next term is too: the errors of the
factors and of the first division add up to less than 8, which the second division at least halves. -/
theorem nextTerm_near (hq0 : 0 ≤ q) (hq1 : q ≤ 1) (hr2 : |(r2 : ℝ) - q * 2 ^ trigBits| ≤ 1) (hi : 1 ≤ i)
    (he : |e| ≤ 2 ^ trigBits) (hterm : |(term : ℝ) - e| ≤ 5) :
    |(nextTerm r2 i term : ℝ) - -(e * q) / (i * (i + 1))| ≤ 5 := by
  have hu := two_pow_trigBits_large
  have hu0 : (0 : ℝ) < 2 ^ trigBits := by positivity
  have hk : (2 : ℝ) ≤ i * (i + 1) := by
    have : 2 ≤ i * (i + 1) := by nlinarith
    exact_mod_cast this
  have hfirst := abs_ediv_sub_le (-(term * r2)) (b := 2 ^ trigBits) (by positivity)
  have hsecond := abs_ediv_sub_le (-(term * r2) / 2 ^ trigBits) (b := i * (i + 1))
    (by exact_mod_cast two_pos.trans_le hk)
  have hprod : |(term : ℝ) * r2 / 2 ^ trigBits - e * q| ≤ 7 := by
    have hsplit : (term : ℝ) * r2 / 2 ^ trigBits - e * q =
        term * (r2 - q * 2 ^ trigBits) / 2 ^ trigBits + (term - e) * q := by
      field_simp
      ring
    have hsize : |(term : ℝ)| ≤ 2 * 2 ^ trigBits := by
      have := abs_sub_abs_le_abs_sub (term : ℝ) e
      linarith
    have hleft : |(term : ℝ) * (r2 - q * 2 ^ trigBits) / 2 ^ trigBits| ≤ 2 := by
      rw [abs_div, abs_mul, abs_of_pos hu0, div_le_iff₀ hu0]
      calc |(term : ℝ)| * |(r2 : ℝ) - q * 2 ^ trigBits| ≤ 2 * 2 ^ trigBits * 1 := by gcongr
        _ = 2 * 2 ^ trigBits := mul_one _
    have hright : |((term : ℝ) - e) * q| ≤ 5 := by
      rw [abs_mul, abs_of_nonneg hq0]
      calc |(term : ℝ) - e| * q ≤ 5 * 1 := by gcongr
        _ = 5 := mul_one _
    rw [hsplit]
    exact (abs_add_le _ _).trans (by linarith)
  have hdiv : |((-(term * r2) / 2 ^ trigBits : ℤ) : ℝ) - -(e * q)| ≤ 8 := by
    push_cast at hfirst
    rw [neg_div] at hfirst
    rw [abs_le] at hfirst hprod ⊢
    constructor <;> linarith
  have hhalf : |((-(term * r2) / 2 ^ trigBits : ℤ) : ℝ) / (i * (i + 1)) - -(e * q) / (i * (i + 1))| ≤ 4 := by
    rw [← sub_div, abs_div, abs_of_pos (two_pos.trans_le hk), div_le_iff₀ (two_pos.trans_le hk)]
    linarith
  push_cast at hsecond
  exact (abs_sub_le _ _ _).trans ((add_le_add hsecond hhalf).trans (by norm_num))

/-- `seriesSum` is off by no more than 5 for each term it adds to an exact alternating series `e`. -/
theorem seriesSum_near {e : ℕ → ℝ} (hq0 : 0 ≤ q) (hq1 : q ≤ 1) (hr2 : |(r2 : ℝ) - q * 2 ^ trigBits| ≤ 1) (hi : 1 ≤ i)
    (he : ∀ j, e (j + 1) = -(e j * q) / ((i + 2 * j) * (i + 2 * j + 1))) (hbound : ∀ j, |e j| ≤ 2 ^ trigBits)
    (hterm : |(term : ℝ) - e 0| ≤ 5) (fuel : ℕ) (acc : ℤ) :
    |(seriesSum r2 fuel i term acc : ℝ) - (acc + ∑ j ∈ range fuel, e (j + 1))| ≤ 5 * fuel := by
  induction fuel generalizing i term acc e with
  | zero => simp [seriesSum]
  | succ fuel ih =>
    have hnext : |(nextTerm r2 i term : ℝ) - e 1| ≤ 5 := by
      have h := nextTerm_near hq0 hq1 hr2 hi (hbound 0) hterm
      rw [← zero_add 1, he 0]
      simpa using h
    have hrest := ih (i := i + 2) (e := fun j => e (j + 1)) (by omega)
      (fun j => by rw [he]; push_cast; ring_nf) (fun j => hbound _) hnext (acc + nextTerm r2 i term)
    rw [seriesSum_succ, sum_range_succ']
    push_cast at hrest ⊢
    rw [abs_le] at hnext hrest ⊢
    constructor <;> linarith

end series

theorem powerTerm_succ (b : ℕ) (x : ℝ) (j : ℕ) :
    powerTerm b x (j + 1) = powerTerm b x j * x ^ 2 / ((b + 1 + 2 * j) * (b + 1 + 2 * j + 1)) := by
  have hfact : (2 * (j + 1) + b).factorial = (2 * j + b + 2) * ((2 * j + b + 1) * (2 * j + b).factorial) := by
    rw [← Nat.factorial_succ, ← Nat.factorial_succ]
    congr 1
    omega
  rw [powerTerm, powerTerm, hfact, show 2 * (j + 1) + b = 2 * j + b + 2 by omega, pow_add]
  push_cast
  field_simp
  ring

theorem abs_powerTerm_le {x : ℝ} (hx : |x| ≤ 1) (b j : ℕ) : |powerTerm b x j| ≤ 1 := by
  have hfact : (1 : ℝ) ≤ (2 * j + b).factorial := by exact_mod_cast Nat.factorial_pos (2 * j + b)
  rw [powerTerm, abs_div, abs_pow, Nat.abs_cast]
  exact div_le_one_of_le₀ ((pow_le_one₀ (abs_nonneg x) hx).trans hfact) (by positivity)

/-- A term of either series, with its sign, in units of the fixed point. -/
noncomputable def seriesTerm (b : ℕ) (x : ℝ) (j : ℕ) : ℝ := (-1) ^ j * powerTerm b x j * 2 ^ trigBits

theorem seriesTerm_succ (b : ℕ) (x : ℝ) (j : ℕ) :
    seriesTerm b x (j + 1) = -(seriesTerm b x j * x ^ 2) / ((b + 1 + 2 * j) * (b + 1 + 2 * j + 1)) := by
  rw [seriesTerm, seriesTerm, powerTerm_succ, pow_succ]
  ring

theorem abs_seriesTerm_le {x : ℝ} (hx : |x| ≤ 1) (b j : ℕ) : |seriesTerm b x j| ≤ 2 ^ trigBits := by
  have hu : (0 : ℝ) < 2 ^ trigBits := by positivity
  rw [seriesTerm, abs_mul, abs_mul, abs_pow, abs_neg, abs_one, one_pow, one_mul, abs_of_pos hu]
  exact mul_le_of_le_one_left hu.le (abs_powerTerm_le hx b j)

theorem powerSum_succ_eq (b : ℕ) (x : ℝ) (n : ℕ) :
    powerSum b x (n + 1) * 2 ^ trigBits = seriesTerm b x 0 + ∑ j ∈ range n, seriesTerm b x (j + 1) := by
  rw [powerSum, sum_mul, sum_range_succ', add_comm]
  rfl

/-- The square that `sinCosFixed` takes is rounded down. -/
theorem square_near (r : ℤ) :
    |((r * r / 2 ^ trigBits : ℤ) : ℝ) - ((r : ℝ) / 2 ^ trigBits) ^ 2 * 2 ^ trigBits| ≤ 1 := by
  have hsq : ((r : ℝ) / 2 ^ trigBits) ^ 2 * 2 ^ trigBits = (r * r : ℤ) / (2 ^ trigBits : ℤ) := by
    push_cast
    field_simp
  rw [hsq]
  exact abs_ediv_sub_le _ (by positivity)

/-- The series of the model, from the exact first term: 40 further terms. -/
theorem seriesSum_near_powerSum {r : ℤ} (b : ℕ) (hr : |(r : ℝ) / 2 ^ trigBits| ≤ 1) {first : ℤ}
    (hfirst : (first : ℝ) = seriesTerm b (r / 2 ^ trigBits) 0) :
    |(seriesSum (r * r / 2 ^ trigBits) 40 (b + 1) first first : ℝ) -
      powerSum b (r / 2 ^ trigBits) 41 * 2 ^ trigBits| ≤ 200 := by
  have hsum := seriesSum_near (i := b + 1) (term := first) (e := seriesTerm b (r / 2 ^ trigBits)) (sq_nonneg _)
    ((sq_le_one_iff_abs_le_one _).mpr hr) (square_near r) (by omega)
    (fun j => by simpa using seriesTerm_succ b _ j) (abs_seriesTerm_le hr b) (by simp [hfirst]) 40 first
  rw [hfirst, ← powerSum_succ_eq] at hsum
  norm_num at hsum ⊢
  exact hsum

/-- The sine of a reduced angle, as `sinCosFixed` computes it. -/
def fixedSine (r : ℤ) : ℤ := seriesSum (r * r / 2 ^ trigBits) 40 2 r r

/-- The cosine of a reduced angle, likewise. -/
def fixedCosine (r : ℤ) : ℤ := seriesSum (r * r / 2 ^ trigBits) 40 1 (2 ^ trigBits) (2 ^ trigBits)

/-- What 41 terms leave out is less than a unit. -/
theorem two_pow_trigBits_le_factorial : 2 ^ trigBits ≤ (2 * 41).factorial := by decide +kernel

/-- Both errors of a series together. -/
theorem near_of_series {v : ℤ} {p y : ℝ} {n : ℕ} (hseries : |(v : ℝ) - p * 2 ^ trigBits| ≤ 200)
    (hcut : |y - p| ≤ 1 / n.factorial) (hn : 2 * 41 ≤ n) : |(v : ℝ) - y * 2 ^ trigBits| ≤ 201 := by
  have hu : (0 : ℝ) < 2 ^ trigBits := by positivity
  have hfact : (2 : ℝ) ^ trigBits ≤ n.factorial := by
    exact_mod_cast two_pow_trigBits_le_factorial.trans (Nat.factorial_le hn)
  have hscaled : |p * 2 ^ trigBits - y * 2 ^ trigBits| ≤ 1 := by
    rw [← sub_mul, abs_mul, abs_of_pos hu, abs_sub_comm, ← le_div_iff₀ hu]
    exact hcut.trans (one_div_le_one_div_of_le hu hfact)
  exact (abs_sub_le _ _ _).trans ((add_le_add hseries hscaled).trans (by norm_num))

section reduced

variable {r : ℤ} (hr : |(r : ℝ) / 2 ^ trigBits| ≤ 1)

include hr

theorem fixedSine_near : |(fixedSine r : ℝ) - Real.sin (r / 2 ^ trigBits) * 2 ^ trigBits| ≤ 201 :=
  near_of_series (seriesSum_near_powerSum 1 hr (by simp [seriesTerm, powerTerm])) (abs_sin_sub_powerSum_le hr 41)
    (by decide)

theorem fixedCosine_near : |(fixedCosine r : ℝ) - Real.cos (r / 2 ^ trigBits) * 2 ^ trigBits| ≤ 201 :=
  near_of_series (seriesSum_near_powerSum 0 hr (by simp [seriesTerm, powerTerm])) (abs_cos_sub_powerSum_le hr 41)
    (by decide)

end reduced

/-! ### The reduction by multiples of π/2 -/

/-- The lane's value with `halfPiBits` fraction bits; it is exact. -/
def angleFixed (F : Fmt) (x : Lane F) : ℤ := signedQuanta F x * 2 ^ (halfPiBits - quantumExp F)

/-- The multiple of π/2 nearest to the angle. -/
def quarterTurns (F : Fmt) (x : Lane F) : ℤ := (2 * angleFixed F x + halfPiFixed) / (2 * halfPiFixed)

/-- What the nearest multiple leaves of the angle, with `trigBits` fraction bits. -/
def reducedAngle (F : Fmt) (x : Lane F) : ℤ :=
  (angleFixed F x - quarterTurns F x * halfPiFixed) / 2 ^ (halfPiBits - trigBits)

/-- The constant is between 1 and 1.6. -/
theorem halfPiFixed_bounds : 2 ^ halfPiBits ≤ halfPiFixed ∧ 5 * halfPiFixed ≤ 8 * 2 ^ halfPiBits := by decide +kernel

section reduction

variable {F : Fmt} (x : Lane F)

theorem angleFixed_eq : (angleFixed F x : ℝ) = laneValue F x * 2 ^ halfPiBits := by
  have hle : quantumExp F ≤ halfPiBits := by cases F <;> decide
  rw [angleFixed, laneValue, ← Nat.sub_add_cancel hle, pow_add]
  push_cast
  rw [Nat.add_sub_cancel]
  field_simp

/-- Rounding to nearest leaves no more than half of π/2. -/
theorem abs_remainder_le : 2 * |angleFixed F x - quarterTurns F x * halfPiFixed| ≤ halfPiFixed := by
  have hpos : (0 : ℤ) < 2 * halfPiFixed := by decide +kernel
  have hsplit := Int.mul_ediv_add_emod (2 * angleFixed F x + halfPiFixed) (2 * halfPiFixed)
  have hlo := Int.emod_nonneg (2 * angleFixed F x + halfPiFixed) hpos.ne'
  have hhi := Int.emod_lt_of_pos (2 * angleFixed F x + halfPiFixed) hpos
  rw [← quarterTurns] at hsplit
  generalize (halfPiFixed : ℤ) = h at *
  have hcomm : 2 * h * quarterTurns F x = 2 * (quarterTurns F x * h) := by ring
  rw [← abs_two, ← abs_mul, abs_le]
  constructor <;> linarith

theorem reducedAngle_near :
    |(reducedAngle F x : ℝ) -
      (angleFixed F x - quarterTurns F x * halfPiFixed) / 2 ^ (halfPiBits - trigBits)| ≤ 1 := by
  have h := abs_ediv_sub_le (angleFixed F x - quarterTurns F x * halfPiFixed)
    (b := 2 ^ (halfPiBits - trigBits)) (by positivity)
  push_cast at h
  exact h

/-- The units of the reduction in units of the result. -/
theorem two_pow_halfPiBits : (2 : ℝ) ^ halfPiBits = 2 ^ trigBits * 2 ^ (halfPiBits - trigBits) := by
  rw [← pow_add, Nat.add_sub_cancel' (by decide)]

/-- The reduced angle is in the range of the series. -/
theorem abs_reducedAngle_le : |(reducedAngle F x : ℝ) / 2 ^ trigBits| ≤ 1 := by
  have hu := two_pow_trigBits_large
  have hw : (0 : ℝ) < 2 ^ (halfPiBits - trigBits) := by positivity
  have hrem : 2 * |(angleFixed F x : ℝ) - quarterTurns F x * halfPiFixed| ≤ halfPiFixed := by
    exact_mod_cast abs_remainder_le x
  have hpi : 5 * (halfPiFixed : ℝ) ≤ 8 * 2 ^ halfPiBits := by exact_mod_cast halfPiFixed_bounds.2
  have hquot : |((angleFixed F x : ℝ) - quarterTurns F x * halfPiFixed) / 2 ^ (halfPiBits - trigBits)| ≤
      4 / 5 * 2 ^ trigBits := by
    rw [two_pow_halfPiBits] at hpi
    rw [abs_div, abs_of_pos hw, div_le_iff₀ hw]
    linarith
  have hnear := reducedAngle_near x
  have habs := abs_sub_abs_le_abs_sub (reducedAngle F x : ℝ)
    (((angleFixed F x : ℝ) - quarterTurns F x * halfPiFixed) / 2 ^ (halfPiBits - trigBits))
  have hu0 : (0 : ℝ) < 2 ^ trigBits := by positivity
  rw [abs_div, abs_of_pos hu0, div_le_one hu0]
  linarith

/-- The largest finite value is below `2 ^ 1024`. -/
theorem abs_laneValue_lt (hx : isFinite F x = true) : |(laneValue F x : ℝ)| < 2 ^ 1024 := by
  have hq : (0 : ℝ) < 2 ^ quantumExp F := by positivity
  have hover : (overflowBound F : ℝ) ≤ 2 ^ 1024 := by
    have hexp : F.fracBits + 2 + (F.bias - F.fracBits - 1) ≤ 1024 := by cases F <;> decide
    rw [overflowBound]
    push_cast
    calc ((2 : ℝ) ^ (F.fracBits + 2) - 1) * 2 ^ (F.bias - F.fracBits - 1)
        ≤ 2 ^ (F.fracBits + 2) * 2 ^ (F.bias - F.fracBits - 1) := by gcongr; linarith
      _ = 2 ^ (F.fracBits + 2 + (F.bias - F.fracBits - 1)) := (pow_add _ _ _).symm
      _ ≤ 2 ^ 1024 := pow_le_pow_right₀ one_le_two hexp
  rw [laneValue_eq, abs_mul, abs_signFactor, one_mul, abs_of_nonneg (by positivity), div_lt_iff₀ hq]
  exact (quanta_lt_overflow hx).trans_le (by gcongr)

/-- The number of quarter turns is not much larger than the angle. -/
theorem abs_quarterTurns_le (hx : isFinite F x = true) : |(quarterTurns F x : ℝ)| ≤ 2 ^ 1025 := by
  have hpi : (2 : ℝ) ^ halfPiBits ≤ halfPiFixed := by exact_mod_cast halfPiFixed_bounds.1
  have hpos : (0 : ℝ) < halfPiFixed := lt_of_lt_of_le (by positivity) hpi
  have hrem : 2 * |(angleFixed F x : ℝ) - quarterTurns F x * halfPiFixed| ≤ halfPiFixed := by
    exact_mod_cast abs_remainder_le x
  have hangle : |(angleFixed F x : ℝ)| ≤ 2 ^ 1024 * halfPiFixed := by
    rw [angleFixed_eq, abs_mul, abs_of_pos (by positivity : (0 : ℝ) < 2 ^ halfPiBits)]
    exact mul_le_mul (abs_laneValue_lt x hx).le hpi (by positivity) (by positivity)
  have hmul : |(quarterTurns F x : ℝ) * halfPiFixed| ≤ 2 ^ 1025 * halfPiFixed := by
    have habs := abs_sub_abs_le_abs_sub ((quarterTurns F x : ℝ) * halfPiFixed) (angleFixed F x)
    rw [abs_sub_comm] at habs
    have hone : (1 : ℝ) ≤ 2 ^ 1024 := one_le_pow₀ one_le_two
    have hone' : (halfPiFixed : ℝ) ≤ 2 ^ 1024 * halfPiFixed := le_mul_of_one_le_left hpos.le hone
    have hdouble : (2 : ℝ) ^ 1025 = 2 * 2 ^ 1024 := pow_succ' 2 1024
    rw [hdouble]
    generalize (2 : ℝ) ^ 1024 = z at *
    linarith
  rw [abs_mul, abs_of_pos hpos] at hmul
  exact le_of_mul_le_mul_right hmul hpos

/-- The reduced angle is the lane's value less the quarter turns, but for 2 units. -/
theorem reducedAngle_eq_near (hx : isFinite F x = true) :
    |(laneValue F x : ℝ) - (quarterTurns F x * (Real.pi / 2) + reducedAngle F x / 2 ^ trigBits)| * 2 ^ trigBits ≤
      2 := by
  have hu : (0 : ℝ) < 2 ^ trigBits := by positivity
  have hw : (0 : ℝ) < 2 ^ (halfPiBits - trigBits) := by positivity
  have hconst : |(quarterTurns F x : ℝ) * (halfPiFixed - Real.pi / 2 * 2 ^ halfPiBits)| ≤
      2 ^ (halfPiBits - trigBits) := by
    rw [abs_mul]
    calc |(quarterTurns F x : ℝ)| * |(halfPiFixed : ℝ) - Real.pi / 2 * 2 ^ halfPiBits| ≤ 2 ^ 1025 * 2 ^ 13 :=
          mul_le_mul (abs_quarterTurns_le x hx) halfPiFixed_near (abs_nonneg _) (by positivity)
      _ = 2 ^ (1025 + 13) := (pow_add _ _ _).symm
      _ ≤ 2 ^ (halfPiBits - trigBits) := pow_le_pow_right₀ one_le_two (by decide)
  have hsplit : ((laneValue F x : ℝ) - (quarterTurns F x * (Real.pi / 2) + reducedAngle F x / 2 ^ trigBits)) *
      2 ^ trigBits =
      (quarterTurns F x * (halfPiFixed - Real.pi / 2 * 2 ^ halfPiBits)) / 2 ^ (halfPiBits - trigBits) -
        (reducedAngle F x -
          (angleFixed F x - quarterTurns F x * halfPiFixed) / 2 ^ (halfPiBits - trigBits)) := by
    rw [angleFixed_eq, two_pow_halfPiBits]
    field_simp
    ring
  have hconst' : |(quarterTurns F x * (halfPiFixed - Real.pi / 2 * 2 ^ halfPiBits)) /
      2 ^ (halfPiBits - trigBits)| ≤ 1 := by
    rw [abs_div, abs_of_pos hw]
    exact div_le_one_of_le₀ hconst hw.le
  conv_lhs => rw [← abs_of_pos hu, ← abs_mul]
  rw [abs_of_pos hu, hsplit]
  exact (abs_sub _ _).trans ((add_le_add hconst' (reducedAngle_near x)).trans (by norm_num))

end reduction

/-! ### Sine and cosine after the reduction -/

/-- `v` is the pair of the sine and the cosine of `y` in fixed point, within `n` units. -/
def SinCosNear (v : ℤ × ℤ) (y n : ℝ) : Prop :=
  |(v.1 : ℝ) - Real.sin y * 2 ^ trigBits| ≤ n ∧ |(v.2 : ℝ) - Real.cos y * 2 ^ trigBits| ≤ n

/-- A quarter turn further the sine is the cosine, and the cosine the sine negated. -/
def quarterTurn (v : ℤ × ℤ) : ℤ × ℤ := (v.2, -v.1)

theorem SinCosNear.add_quarterTurn {v : ℤ × ℤ} {y n : ℝ} (h : SinCosNear v y n) :
    SinCosNear (quarterTurn v) (y + Real.pi / 2) n := by
  obtain ⟨hs, hc⟩ := h
  refine ⟨by rwa [Real.sin_add_pi_div_two], ?_⟩
  rw [Real.cos_add_pi_div_two, quarterTurn, Int.cast_neg, neg_mul, ← neg_sub', abs_neg]
  exact hs

theorem SinCosNear.add_quarterTurns {v : ℤ × ℤ} {y n : ℝ} (h : SinCosNear v y n) (k : ℕ) :
    SinCosNear (quarterTurn^[k] v) (y + k * (Real.pi / 2)) n := by
  induction k with
  | zero => simpa using h
  | succ k ih =>
    have hstep : y + (k + 1 : ℕ) * (Real.pi / 2) = y + k * (Real.pi / 2) + Real.pi / 2 := by
      push_cast
      ring
    rw [Function.iterate_succ_apply', hstep]
    exact ih.add_quarterTurn

theorem SinCosNear.add_turns {v : ℤ × ℤ} {y n : ℝ} (h : SinCosNear v y n) (m : ℤ) :
    SinCosNear v (y + m * (2 * Real.pi)) n := by
  rw [SinCosNear, Real.sin_add_int_mul_two_pi, Real.cos_add_int_mul_two_pi]
  exact h

/-- An angle near `y` has nearly the same sine and cosine. -/
theorem SinCosNear.of_near {v : ℤ × ℤ} {y y' n e : ℝ} (h : SinCosNear v y n) (hy : |y' - y| * 2 ^ trigBits ≤ e) :
    SinCosNear v y' (n + e) := by
  have hu : (0 : ℝ) < 2 ^ trigBits := by positivity
  rw [abs_sub_comm] at hy
  have hscale : ∀ {a b : ℝ}, |a - b| ≤ |y - y'| → |a * 2 ^ trigBits - b * 2 ^ trigBits| ≤ e := fun hab => by
    rw [← sub_mul, abs_mul, abs_of_pos hu]
    exact (mul_le_mul_of_nonneg_right hab hu.le).trans hy
  exact ⟨(abs_sub_le _ _ _).trans (add_le_add h.1 (hscale (Real.abs_sin_sub_sin_le y y'))),
    (abs_sub_le _ _ _).trans (add_le_add h.2 (hscale (Real.abs_cos_sub_cos_le y y')))⟩

/-- The model's four cases are so many quarter turns. -/
theorem sinCosFixed_eq (F : Fmt) (x : Lane F) :
    sinCosFixed F x =
      quarterTurn^[(quarterTurns F x % 4).toNat] (fixedSine (reducedAngle F x), fixedCosine (reducedAngle F x)) := by
  have hlt : (quarterTurns F x % 4).toNat < 4 := by omega
  have hturns : quarterTurns F x =
      (2 * (signedQuanta F x * 2 ^ (halfPiBits - quantumExp F)) + halfPiFixed) / (2 * halfPiFixed) := rfl
  simp only [sinCosFixed, ← hturns]
  generalize hn : (quarterTurns F x % 4).toNat = n at *
  interval_cases n
  · rfl
  · rfl
  · rfl
  · exact Prod.ext rfl (neg_neg (fixedSine (reducedAngle F x))).symm

/-- `sinCosFixed` is within 203 units of the sine and the cosine of the lane's value. -/
theorem sinCosFixed_near {F : Fmt} {x : Lane F} (hx : isFinite F x = true) :
    SinCosNear (sinCosFixed F x) (laneValue F x) 203 := by
  have hr := abs_reducedAngle_le x
  have hreduced : SinCosNear (fixedSine (reducedAngle F x), fixedCosine (reducedAngle F x))
      (reducedAngle F x / 2 ^ trigBits) 201 := ⟨fixedSine_near hr, fixedCosine_near hr⟩
  have hturned := (hreduced.add_quarterTurns (quarterTurns F x % 4).toNat).add_turns (quarterTurns F x / 4)
  have hangle : (reducedAngle F x / 2 ^ trigBits : ℝ) + (quarterTurns F x % 4).toNat * (Real.pi / 2) +
      (quarterTurns F x / 4 : ℤ) * (2 * Real.pi) =
      quarterTurns F x * (Real.pi / 2) + reducedAngle F x / 2 ^ trigBits := by
    have hmod : (((quarterTurns F x % 4).toNat : ℤ) : ℝ) = (quarterTurns F x : ℝ) - 4 * (quarterTurns F x / 4 : ℤ) := by
      have h : ((quarterTurns F x % 4).toNat : ℤ) = quarterTurns F x - 4 * (quarterTurns F x / 4) := by omega
      exact_mod_cast h
    rw [Int.cast_natCast] at hmod
    rw [hmod]
    ring
  rw [← sinCosFixed_eq, hangle] at hturned
  have h := hturned.of_near (reducedAngle_eq_near x hx)
  norm_num at h
  exact h

/-! ### The bound of R193 -/

/-- A finite lane less than 1e-6 away from a real number: constraint 2 of R193. -/
def WithinMillionth (F : Fmt) (y : Lane F) (e : ℝ) : Prop :=
  isFinite F y = true ∧ |((laneValue F y : ℚ) : ℝ) - e| < 1 / 10 ^ 6

section bound

variable {F : Fmt} {v : ℤ} {e : ℝ}

/-- The margin of `withinBound` is more than the fixed-point error. -/
theorem withinMillionth_of_withinBound {y : Lane F} (h : withinBound F y v = true)
    (hv : |(v : ℝ) - e * 2 ^ trigBits| ≤ 203) : WithinMillionth F y e := by
  have hq : (0 : ℝ) < 2 ^ quantumExp F := by positivity
  have hu : (0 : ℝ) < 2 ^ trigBits := by positivity
  obtain ⟨hfin, hclose⟩ : isFinite F y = true ∧
      ((signedQuanta F y * 2 ^ trigBits - v * 2 ^ quantumExp F).natAbs + 2 ^ (quantumExp F + 20)) * 10 ^ 6 <
        2 ^ (trigBits + quantumExp F) := by
    simpa only [withinBound, Bool.and_eq_true, decide_eq_true_eq] using h
  refine ⟨hfin, ?_⟩
  have hclose' : (|(signedQuanta F y : ℝ) * 2 ^ trigBits - v * 2 ^ quantumExp F| + 2 ^ (quantumExp F + 20)) * 10 ^ 6 <
      2 ^ (trigBits + quantumExp F) := by
    have h : (((signedQuanta F y * 2 ^ trigBits - v * 2 ^ quantumExp F).natAbs : ℝ) + 2 ^ (quantumExp F + 20)) *
        10 ^ 6 < 2 ^ (trigBits + quantumExp F) := by exact_mod_cast hclose
    rw [Nat.cast_natAbs] at h
    push_cast at h
    exact h
  have hscale : (laneValue F y - e : ℝ) * (2 ^ trigBits * 2 ^ quantumExp F) =
      (signedQuanta F y * 2 ^ trigBits - v * 2 ^ quantumExp F) + (v - e * 2 ^ trigBits) * 2 ^ quantumExp F := by
    rw [laneValue]
    push_cast
    field_simp
    ring
  have herr : |((v : ℝ) - e * 2 ^ trigBits) * 2 ^ quantumExp F| ≤ 203 * 2 ^ quantumExp F := by
    rw [abs_mul, abs_of_pos hq]
    gcongr
  have htotal : |(laneValue F y - e : ℝ)| * (2 ^ trigBits * 2 ^ quantumExp F) ≤
      |(signedQuanta F y : ℝ) * 2 ^ trigBits - v * 2 ^ quantumExp F| + 203 * 2 ^ quantumExp F := by
    conv_lhs => rw [← abs_of_pos (mul_pos hu hq), ← abs_mul, hscale]
    exact (abs_add_le _ _).trans (by gcongr)
  rw [pow_add, pow_add] at hclose'
  rw [lt_div_iff₀ (by positivity)]
  refine lt_of_mul_lt_mul_right ?_ (mul_pos hu hq).le
  nlinarith

/-- A number as its sign and its absolute value. -/
theorem intCast_eq_signFactor_mul (v : ℤ) : (v : ℝ) = signFactor (decide (v < 0)) * v.natAbs := by
  rw [Nat.cast_natAbs, signFactor]
  by_cases h : v < 0
  · simp [h, abs_of_neg h]
  · simp [h, abs_of_nonneg (not_lt.mp h)]

/-- Half a last place of a number of at most `2 * 2 ^ quantumExp F` quanta. -/
theorem Nearest.half_lastPlace_le {w : ℝ} {k m : ℕ} (h : Nearest F w k m) (hw : w ≤ 2 * 2 ^ quantumExp F) :
    (2 : ℝ) ^ k / 2 ≤ 2 ^ quantumExp F / 2 ^ 23 := by
  have hfrac : (2 : ℝ) ^ 23 ≤ 2 ^ F.fracBits := pow_le_pow_right₀ one_le_two (by cases F <;> decide)
  have hexp : (2 : ℝ) ^ 23 ≤ 2 ^ quantumExp F := pow_le_pow_right₀ one_le_two (by cases F <;> decide)
  rw [div_le_div_iff₀ two_pos (by positivity)]
  obtain rfl | hle := h.le
  · linarith
  · have hmul : (2 : ℝ) ^ 23 * 2 ^ k ≤ 2 ^ F.fracBits * 2 ^ k := by gcongr
    linarith

/-- A fixed-point number of at most 2 is rounded to a finite lane, off by no more than half a last place. -/
theorem laneOfFixed_near (hv : |(v : ℝ)| ≤ 2 * 2 ^ trigBits) :
    isFinite F (laneOfFixed F v) = true ∧ |(laneValue F (laneOfFixed F v) : ℝ) - v / 2 ^ trigBits| ≤ 1 / 2 ^ 23 := by
  have hq : (0 : ℝ) < 2 ^ quantumExp F := by positivity
  have hu : (0 : ℝ) < 2 ^ trigBits := by positivity
  have hnear := nearest_roundMagnitude F (v.natAbs * 2 ^ quantumExp F) (Nat.two_pow_pos trigBits)
  have hlane := roundLane_eq_nearestLane F (decide (v < 0)) (v.natAbs * 2 ^ quantumExp F) (2 ^ trigBits)
  rw [← laneOfFixed] at hlane
  generalize lastPlace F (v.natAbs * 2 ^ quantumExp F) (2 ^ trigBits) = k at hnear hlane
  generalize significand F (v.natAbs * 2 ^ quantumExp F) (2 ^ trigBits) = m at hnear hlane
  push_cast at hnear
  rw [hlane]
  have hw : (v.natAbs : ℝ) * 2 ^ quantumExp F / 2 ^ trigBits ≤ 2 * 2 ^ quantumExp F := by
    rw [Nat.cast_natAbs, Int.cast_abs, div_le_iff₀ hu]
    nlinarith
  have hover : (v.natAbs : ℝ) * 2 ^ quantumExp F / 2 ^ trigBits < overflowBound F * 2 ^ quantumExp F := by
    have htwo : (2 : ℝ) < 2 ^ (F.fracBits + 1) := by
      calc (2 : ℝ) = 2 ^ 1 := (pow_one 2).symm
        _ < 2 ^ (F.fracBits + 1) := pow_lt_pow_right₀ one_lt_two (by cases F <;> decide)
    exact hw.trans_lt (mul_lt_mul_of_pos_right (htwo.trans_le (two_pow_le_overflowBound F)) hq)
  refine ⟨hnear.isFinite _ hover, ?_⟩
  have hdist : (laneValue F (nearestLane F (decide (v < 0)) k m) : ℝ) - v / 2 ^ trigBits =
      signFactor (decide (v < 0)) *
        -((v.natAbs * 2 ^ quantumExp F / 2 ^ trigBits - m * 2 ^ k) / 2 ^ quantumExp F) := by
    conv_lhs => rw [laneValue_eq, signbit_nearestLane, hnear.quanta_eq _ hover, intCast_eq_signFactor_mul v]
    push_cast
    field_simp
    ring
  rw [hdist, abs_mul, abs_signFactor, one_mul, abs_neg, abs_div, abs_of_pos hq, div_le_iff₀ hq]
  calc _ ≤ (2 : ℝ) ^ k / 2 := hnear.near
    _ ≤ 2 ^ quantumExp F / 2 ^ 23 := hnear.half_lastPlace_le hw
    _ = 1 / 2 ^ 23 * 2 ^ quantumExp F := by ring

/-- The correctly rounded function is far within the bound. -/
theorem withinMillionth_laneOfFixed (he : |e| ≤ 1) (hv : |(v : ℝ) - e * 2 ^ trigBits| ≤ 203) :
    WithinMillionth F (laneOfFixed F v) e := by
  have hu : (0 : ℝ) < 2 ^ trigBits := by positivity
  have hlarge := two_pow_trigBits_large
  have hsize : |(v : ℝ)| ≤ 2 * 2 ^ trigBits := by
    have habs := abs_sub_abs_le_abs_sub (v : ℝ) (e * 2 ^ trigBits)
    have hle : |e * 2 ^ trigBits| ≤ 2 ^ trigBits := by
      rw [abs_mul, abs_of_pos hu]
      exact mul_le_of_le_one_left hu.le he
    linarith
  have hfixed : |(v : ℝ) / 2 ^ trigBits - e| ≤ 203 / 2 ^ 30 := by
    rw [div_sub' hu.ne', abs_div, abs_of_pos hu, mul_comm _ e]
    exact div_le_div₀ (by norm_num) hv (by norm_num) hlarge
  obtain ⟨hfin, hround⟩ := laneOfFixed_near (F := F) hsize
  refine ⟨hfin, ((abs_sub_le _ _ _).trans (add_le_add hround hfixed)).trans_lt (by norm_num)⟩

end bound

/-! ### The reference functions of a finite lane (R193) -/

section reference

variable {F : Fmt} {x : Lane F} (hx : isFinite F x = true)

include hx

/-- The reference choice: below `2 ^ -30` the angle is its own sine. -/
theorem withinMillionth_nearestSin : WithinMillionth F (nearestSin F x) (Real.sin (laneValue F x : ℚ)) := by
  unfold nearestSin
  split
  · next htiny =>
    have hexp : 30 ≤ quantumExp F := by cases F <;> decide
    have hq : (0 : ℝ) < 2 ^ quantumExp F := by positivity
    have hsmall : |((laneValue F x : ℚ) : ℝ)| ≤ 1 / 2 ^ 30 := by
      rw [tinyAngle, decide_eq_true_eq] at htiny
      have hlt : (quanta F x : ℝ) * 2 ^ 30 ≤ 2 ^ quantumExp F := by
        have h : quanta F x * 2 ^ 30 ≤ 2 ^ (quantumExp F - 30) * 2 ^ 30 := Nat.mul_le_mul_right _ htiny.le
        rw [← Nat.pow_add, Nat.sub_add_cancel hexp] at h
        exact_mod_cast h
      rw [laneValue_eq, abs_mul, abs_signFactor, one_mul, abs_of_nonneg (by positivity),
        div_le_div_iff₀ hq (by positivity), one_mul]
      exact hlt
    have hsin := Real.abs_sin_le_abs (x := ((laneValue F x : ℚ) : ℝ))
    refine ⟨hx, (abs_sub _ _).trans_lt ?_⟩
    norm_num at hsmall ⊢
    linarith
  · exact withinMillionth_laneOfFixed (Real.abs_sin_le_one _) (sinCosFixed_near hx).1

theorem withinMillionth_nearestCos : WithinMillionth F (nearestCos F x) (Real.cos (laneValue F x : ℚ)) :=
  withinMillionth_laneOfFixed (Real.abs_cos_le_one _) (sinCosFixed_near hx).2

theorem withinMillionth_refSin : WithinMillionth F (refSin F x) (Real.sin (laneValue F x : ℚ)) := by
  cases hz : isZero F x
  · simp only [refSin, not_isNaN_of_isFinite hx, not_isInf_of_isFinite hx, hz, Bool.false_eq_true, if_false]
    split
    · next hnative => exact withinMillionth_of_withinBound hnative (sinCosFixed_near hx).1
    · exact withinMillionth_nearestSin hx
  · rw [refSin_of_isZero hz]
    refine ⟨hx, ?_⟩
    simp [laneValue, signedQuanta_of_isZero hz]

theorem withinMillionth_refCos : WithinMillionth F (refCos F x) (Real.cos (laneValue F x : ℚ)) := by
  cases hz : isZero F x
  · simp only [refCos, not_isNaN_of_isFinite hx, not_isInf_of_isFinite hx, hz, Bool.false_eq_true, if_false]
    split
    · next hnative => exact withinMillionth_of_withinBound hnative (sinCosFixed_near hx).2
    · exact withinMillionth_nearestCos hx
  · rw [refCos_of_isZero hz]
    have hone : laneValue F (cOne F) = 1 := by
      rw [cOne, (normalLane_one F).laneValue_eq]
      simp
    refine ⟨isFinite_cOne F, ?_⟩
    rw [hone]
    simp [laneValue, signedQuanta_of_isZero hz]

end reference

/-- Settles O53. -/
theorem referenceWithinBound : Obligations.ReferenceWithinBound := by
  unfold Obligations.ReferenceWithinBound
  exact fun F x hx => ⟨withinMillionth_refSin hx, withinMillionth_refCos hx⟩

end Sys2Proof.Machine
end

section
/-!
PROOFS of 44_tan.md and 45_atan.md, the corner cases (R215, R218, R233). An infinity and a NaN have a quotient that is not
odd and a NaN for remainder, which TAN returns (R215). ATAN's series returns its argument at a zero and the NaN, quieted,
at a NaN; at ±∞ the argument is the reciprocal ±0, which leaves ±π/2 as it is (R233).
-/

namespace Sys2Proof.Machine

set_option Elab.async false

/-! ### An infinity and a NaN are not finite (R102) -/

section classes

variable {F : Fmt} {x : Lane F}

theorem not_isFinite_of_isInf (h : isInf F x = true) : isFinite F x = false :=
  Bool.eq_false_iff.mpr fun hf => by simp [not_isInf_of_isFinite hf] at h

theorem not_isFinite_of_isNaN (h : isNaN F x = true) : isFinite F x = false :=
  Bool.eq_false_iff.mpr fun hf => by simp [not_isNaN_of_isFinite hf] at h

end classes

/-! ### TAN (R215) -/

section tan

variable {F : Fmt} (fu : Bool) (k : CoefRom F) {x : Lane F}

theorem cHalfPi_positive :
    isFinite F (cHalfPi F) = true ∧ isZero F (cHalfPi F) = false ∧ signbit F (cHalfPi F) = false :=
  ⟨(normalLane_halfPi F).isFinite, by cases F <;> decide, (normalLane_halfPi F).sign⟩

theorem tanReduce_of_isInf (h : isInf F x = true) : tanReduce F x = (x, defaultNaN F) := by
  obtain ⟨hfin, hz, hs⟩ := cHalfPi_positive (F := F)
  have hdiv : fdiv F x (cHalfPi F) = x := by
    rw [fdiv_of_isInf_left h hfin, hs, Bool.xor_false, ← eq_infinity_of_isInf h]
  rw [tanReduce, hdiv, rintEven, rintWith_of_isInf _ h, fmul_positive_of_isInf h hfin hz hs, fsub_self_of_isInf h]

theorem tanReduce_of_isNaN (h : isNaN F x = true) : tanReduce F x = (quiet F x, quiet F x) := by
  rw [tanReduce, fdiv_of_isNaN_left h, rintEven, rintWith_of_isNaN (isNaN_quiet x h), quiet_quiet,
    fsub_of_isNaN_left h]

theorem tanPrecise_of_isZero (h : isZero F x = true) : tanPrecise F fu k x = zero F false := by
  rw [tanPrecise_eq]
  exact if_pos h

/-- A NaN remainder is the numerator in both branches of the guard, and the even branch divides it. -/
theorem tanPrecise_of_remainder_isNaN {q r : Lane F} (hx : isZero F x = false) (hred : tanReduce F x = (q, r))
    (hq : isFinite F q = false) (hr : isNaN F r = true) : tanPrecise F fu k x = quiet F r := by
  obtain ⟨hquot, hrem⟩ := Prod.mk.inj hred
  have hodd : isOddIntegral F q = false := by simp [isOddIntegral, hq]
  rw [hquot] at hrem
  simp only [tanPrecise_eq, hquot, hrem, hx, hodd, Bool.false_eq_true, if_false, fmul_of_isNaN_left hr]
  split
  · exact fdiv_of_isNaN_left hr _
  · rw [fdiv_of_isNaN_left (isNaN_quiet r hr), quiet_quiet]

theorem tanPrecise_of_isInf (h : isInf F x = true) : tanPrecise F fu k x = defaultNaN F := by
  rw [tanPrecise_of_remainder_isNaN fu k (not_isZero_of_isInf h) (tanReduce_of_isInf h) (not_isFinite_of_isInf h)
    (isNaN_defaultNaN F), quiet_defaultNaN]

theorem tanPrecise_of_isNaN (h : isNaN F x = true) : tanPrecise F fu k x = quiet F x := by
  have hx : isZero F x = false := Bool.eq_false_iff.mpr fun h0 => by simp [not_isNaN_of_isZero h0] at h
  have hn := isNaN_quiet x h
  rw [tanPrecise_of_remainder_isNaN fu k hx (tanReduce_of_isNaN h) (not_isFinite_of_isNaN hn) hn, quiet_quiet]

end tan

/-! ### ATAN's series and its range (R232, R233) -/

section atan

variable {F : Fmt} {fu : Bool} {k : CoefRom F} {x z : Lane F}

/-- The series on its argument: the polynomial in the square, times the argument. -/
theorem series_of_isZero (hk : FiniteRom k) (t : TableId) (hz : isZero F z = true) :
    fmul F (poly1 F fu k t (fmul F z z)) z = z := by
  have hfin := isFinite_of_isZero hz
  have hsq : isZero F (fmul F z z) = true := by rw [fmul_of_isZero_left hz hfin, isZero_zero]
  rw [poly1_of_isZero hk t hsq, fmul_cOne_left hfin]

theorem series_of_isNaN (hk : FiniteRom k) (t : TableId) (hz : isNaN F z = true) :
    fmul F (poly1 F fu k t (fmul F z z)) z = quiet F z := by
  have hq := isNaN_quiet z hz
  rw [fmul_of_isNaN_left hz, poly1_of_isNaN hk t hq, quiet_quiet, fmul_of_isNaN_left hq, quiet_quiet]

/-- |x| against a positive finite lane is a comparison of magnitudes; an infinity's and a NaN's are above it. -/
theorem fle_magnitude_iff {c : Lane F} (hc : isFinite F c = true) (hs : signbit F c = false) :
    fle F (pack F false (magnitude F x)) c = true ↔ magnitude F x ≤ magnitude F c := by
  have hfin : magnitude F c < infMagnitude F := by simpa [isFinite] using hc
  rw [fle_iff, orderKey, orderKey, isNaN, isNaN, hs, signbit_pack _ (magnitude_lt F x),
    magnitude_pack _ (magnitude_lt F x)]
  simp only [Bool.false_eq_true, if_false, decide_eq_false_iff_not, not_lt, Nat.cast_le]
  omega

theorem atanOf_of_inRange (apx : Bool) (h : magnitude F x ≤ magnitude F (cOne F)) :
    atanOf F fu k apx x = fmul F (poly1 F fu k (atanTable k apx) (fmul F x x)) x := by
  rw [atanOf_eq]
  exact if_pos ((fle_magnitude_iff (isFinite_cOne F) (signbit_cOne F)).mpr h)

/-- The ±π/2 from which the series of the reciprocal is taken, for |x| > 1: +π/2 for x > 1, else -π/2. -/
def atanAnchor (F : Fmt) (x : Lane F) : Lane F := if flt F (cOne F) x = true then cHalfPi F else flipSign F (cHalfPi F)

theorem isFinite_atanAnchor : isFinite F (atanAnchor F x) = true := by
  obtain ⟨hfin, -, -⟩ := cHalfPi_positive (F := F)
  rw [atanAnchor]
  split
  · exact hfin
  · rw [isFinite_flipSign, hfin]

theorem isZero_atanAnchor : isZero F (atanAnchor F x) = false := by
  obtain ⟨-, hz, -⟩ := cHalfPi_positive (F := F)
  rw [atanAnchor]
  split
  · exact hz
  · rw [isZero_flipSign, hz]

/-- At an infinity it has the infinity's sign. -/
theorem atanAnchor_of_isInf (h : isInf F x = true) :
    atanAnchor F x = pack F (signbit F x) (magnitude F (cHalfPi F)) := by
  rw [eq_infinity_of_isInf h, signbit_infinity]
  cases F <;> cases signbit _ x <;> decide

theorem atanOf_of_outOfRange (apx : Bool) (h : magnitude F (cOne F) < magnitude F x) :
    atanOf F fu k apx x =
      let z := fdiv F (cOne F) x
      fsub F (atanAnchor F x) (fmul F (poly1 F fu k (atanTable k apx) (fmul F z z)) z) := by
  rw [atanOf_eq]
  exact if_neg fun hle => h.not_ge ((fle_magnitude_iff (isFinite_cOne F) (signbit_cOne F)).mp hle)

theorem magnitude_cOne_lt_infMagnitude (F : Fmt) : magnitude F (cOne F) < infMagnitude F := by
  simpa [isFinite] using isFinite_cOne F

/-! ### ATAN (R233) -/

section corners

variable (apx : Bool) (hk : FiniteRom k)

include hk

theorem atanOf_of_isZero (h : isZero F x = true) : atanOf F fu k apx x = x := by
  have hmag : magnitude F x = 0 := by simpa [isZero] using h
  rw [atanOf_of_inRange apx (hmag ▸ Nat.zero_le _), series_of_isZero hk _ h]

/-- The reciprocal is ±0, and so is the series; taken from ±π/2 it changes nothing. -/
theorem atanOf_of_isInf (h : isInf F x = true) :
    atanOf F fu k apx x = pack F (signbit F x) (magnitude F (cHalfPi F)) := by
  have hmag : magnitude F x = infMagnitude F := by simpa [isInf] using h
  have hinv : isZero F (fdiv F (cOne F) x) = true := by rw [fdiv_of_isInf_right (isFinite_cOne F) h, isZero_zero]
  simp only [atanOf_of_outOfRange apx (hmag ▸ magnitude_cOne_lt_infMagnitude F), series_of_isZero hk _ hinv]
  rw [fsub_of_isZero_right isFinite_atanAnchor isZero_atanAnchor hinv, atanAnchor_of_isInf h]

theorem atanOf_of_isNaN (h : isNaN F x = true) : atanOf F fu k apx x = quiet F x := by
  have hout : magnitude F (cOne F) < magnitude F x :=
    (magnitude_cOne_lt_infMagnitude F).trans (by simpa [isNaN] using h)
  have hq := isNaN_quiet x h
  have hinv : fdiv F (cOne F) x = quiet F x := fdiv_of_isNaN_right (not_isNaN_of_isFinite (isFinite_cOne F)) h
  simp only [atanOf_of_outOfRange apx hout, hinv, series_of_isNaN hk _ hq, quiet_quiet]
  rw [fsub_of_isNaN_right (not_isNaN_of_isFinite isFinite_atanAnchor) hq, quiet_quiet]

end corners

end atan

/-- Settles O56. TAN's cases do not need the ROM's coefficients to be finite; ATAN's do. -/
theorem tanAtanCorners : Obligations.TanAtanCorners := by
  unfold Obligations.TanAtanCorners
  exact fun F fu k apx x => ⟨tanPrecise_of_isZero fu k, fun hk => ⟨tanPrecise_of_isInf fu k, tanPrecise_of_isNaN fu k,
    atanOf_of_isZero apx hk, atanOf_of_isInf apx hk, atanOf_of_isNaN apx hk⟩⟩

end Sys2Proof.Machine
end

section
/-!
PROOFS of 45_atan.md, the special-value table of ATAN2 (R236 to R241). The selects of R237 are the table read from its last
row to its first, and COPYSIGN puts the sign of y on a constant of the ROM; what the rows say of y and of x excludes every
row before, except that rows 3 and 5 overlap in one value. A NaN operand meets no row, and a NaN quotient stays one through
the arctangent of row 6, whatever the coefficients are. The five identities are rows 1 to 4 on constants.
-/

namespace Sys2Proof.Machine

set_option Elab.async false

/-! ### Zeros by class and sign, and the order against +0 (R102, R107) -/

section zeros

variable {F : Fmt} {x : Lane F}

theorem cZero_eq_zero (F : Fmt) : cZero F = zero F false := by cases F <;> decide

theorem cNegZero_eq_zero (F : Fmt) : cNegZero F = zero F true := by cases F <;> decide

theorem eq_zero_iff {s : Bool} : x = zero F s ↔ isZero F x = true ∧ signbit F x = s := by
  constructor
  · rintro rfl
    exact ⟨isZero_zero F s, signbit_zero F s⟩
  · rintro ⟨hz, rfl⟩
    exact eq_zero_of_isZero hz

theorem orderKey_cZero (F : Fmt) : orderKey F (cZero F) = 0 := by cases F <;> decide

theorem not_isNaN_cZero (F : Fmt) : isNaN F (cZero F) = false := by cases F <;> decide

/-- Below +0 are the negative numbers that are no zero. -/
theorem flt_cZero_iff :
    flt F x (cZero F) = true ↔ isNaN F x = false ∧ isZero F x = false ∧ signbit F x = true := by
  rw [flt_iff, orderKey_cZero, orderKey, isZero, beq_eq_false_iff_ne]
  cases signbit F x
  · simp [not_isNaN_cZero]
  · simp [not_isNaN_cZero]
    omega

/-- Above +0 are the positive ones. -/
theorem cZero_flt_iff :
    flt F (cZero F) x = true ↔ isNaN F x = false ∧ isZero F x = false ∧ signbit F x = false := by
  rw [flt_iff, orderKey_cZero, orderKey, isZero, beq_eq_false_iff_ne]
  cases signbit F x
  · simp [not_isNaN_cZero]
    omega
  · simp [not_isNaN_cZero]

end zeros

/-! ### COPYSIGN of a constant (R153, R238) -/

section signed

variable {F : Fmt}

/-- The magnitude of `c` with the sign of `y`. -/
def withSignOf (F : Fmt) (y c : Lane F) : Lane F := pack F (signbit F y) (magnitude F c)

theorem withSignOf_of_signbit_eq {y c : Lane F} (h : signbit F y = signbit F c) : withSignOf F y c = c := by
  rw [withSignOf, h, pack_signbit_magnitude]

theorem withSignOf_of_signbit_ne {y c : Lane F} (h : signbit F y = !signbit F c) : withSignOf F y c = flipSign F c := by
  rw [withSignOf, h, ← signbit_flipSign, ← magnitude_flipSign, pack_signbit_magnitude]

/-- On a positive constant COPYSIGN is that; the exception of C7 is for negative operands only. -/
theorem copySignLane_of_positive {y c : Lane F} (h : signbit F c = false) : copySignLane F y c = withSignOf F y c := by
  rw [copySignLane_eq]
  exact if_neg fun ⟨hs, _⟩ => by simp [h] at hs

/-- Row 1's value is computed with SignMask: the zero of y's sign. -/
theorem and_signMask_or_cZero (y : Lane F) : y &&& cSignMask F ||| cZero F = zero F (signbit F y) := by
  apply lane_ext <;> simp [cSignMask_eq_zero, cZero_eq_zero]

end signed

/-! ### The rows of the table (R236) -/

section rows

variable {F : Fmt} {y x : Lane F}

/-- Row 1: y is a zero and x positive or +0. -/
abbrev Atan2Row1 (F : Fmt) (y x : Lane F) : Prop := isZero F y = true ∧ (flt F (cZero F) x = true ∨ x = zero F false)

/-- Row 2: y is a zero and x negative or -0. -/
abbrev Atan2Row2 (F : Fmt) (y x : Lane F) : Prop := isZero F y = true ∧ (flt F x (cZero F) = true ∨ x = zero F true)

/-- Row 3: x is a zero and y is not. -/
abbrev Atan2Row3 (F : Fmt) (y x : Lane F) : Prop :=
  isZero F x = true ∧ (flt F y (cZero F) = true ∨ flt F (cZero F) y = true)

/-- Row 4: both are infinities. -/
abbrev Atan2Row4 (F : Fmt) (y x : Lane F) : Prop := isInf F y = true ∧ isInf F x = true

/-- Row 5: y is an infinity and x is finite. -/
abbrev Atan2Row5 (F : Fmt) (y x : Lane F) : Prop := isInf F y = true ∧ isFinite F x = true

/-- R237 with its masks read as choices: the table, from row 1 down. -/
theorem atan2Of_eq (F : Fmt) (fu : Bool) (k : CoefRom F) (apx : Bool) (y x : Lane F) :
    atan2Of F fu k apx y x =
      if Atan2Row1 F y x then zero F (signbit F y)
      else if Atan2Row2 F y x then withSignOf F y (cPi F)
      else if Atan2Row3 F y x then withSignOf F y (cHalfPi F)
      else if Atan2Row4 F y x then
        if signbit F x = true then withSignOf F y (cThreeQuarterPi F) else withSignOf F y (cQuarterPi F)
      else if Atan2Row5 F y x then withSignOf F y (cHalfPi F)
      else atan2General F fu k apx y x := by
  have hpi : copySignLane F y (cPi F) = withSignOf F y (cPi F) := copySignLane_of_positive (normalLane_pi F).sign
  have hhalf : copySignLane F y (cHalfPi F) = withSignOf F y (cHalfPi F) :=
    copySignLane_of_positive (normalLane_halfPi F).sign
  have hquarter : copySignLane F y (cQuarterPi F) = withSignOf F y (cQuarterPi F) :=
    copySignLane_of_positive (normalLane_quarterPi F).sign
  have hthree : copySignLane F y (cThreeQuarterPi F) = withSignOf F y (cThreeQuarterPi F) :=
    copySignLane_of_positive (normalLane_threeQuarterPi F).sign
  simp only [atan2Of, sel_mask, hpi, hhalf, hquarter, hthree, and_signMask_or_cZero, feq_cZero, Atan2Row1, Atan2Row2,
    Atan2Row3, Atan2Row4, Atan2Row5, eq_zero_iff, Bool.and_eq_true, Bool.or_eq_true, Bool.not_eq_true']
  cases signbit F x <;> rfl

/-! ### Rows exclude the rows before -/

theorem Atan2Row1.signbit_eq (h : Atan2Row1 F y x) : signbit F x = false := by
  obtain ⟨-, hpos | rfl⟩ := h
  · obtain ⟨-, -, hs⟩ := cZero_flt_iff.mp hpos
    exact hs
  · exact signbit_zero F false

theorem Atan2Row2.signbit_eq (h : Atan2Row2 F y x) : signbit F x = true := by
  obtain ⟨-, hneg | rfl⟩ := h
  · obtain ⟨-, -, hs⟩ := flt_cZero_iff.mp hneg
    exact hs
  · exact signbit_zero F true

theorem Atan2Row2.not_row1 (h2 : Atan2Row2 F y x) : ¬ Atan2Row1 F y x := fun h1 =>
  Bool.false_ne_true (h1.signbit_eq.symm.trans h2.signbit_eq)

/-- Rows 1 and 2 are for a zero y. -/
theorem not_row1_row2_of_not_isZero (hy : isZero F y = false) : ¬ Atan2Row1 F y x ∧ ¬ Atan2Row2 F y x := by
  simp [Atan2Row1, Atan2Row2, hy]

/-- Row 3's y is not a zero. -/
theorem Atan2Row3.not_isZero (h : Atan2Row3 F y x) : isZero F y = false := by
  obtain ⟨-, hneg | hpos⟩ := h
  · obtain ⟨-, hz, -⟩ := flt_cZero_iff.mp hneg
    exact hz
  · obtain ⟨-, hz, -⟩ := cZero_flt_iff.mp hpos
    exact hz

/-- Row 4's x is not a zero. -/
theorem Atan2Row4.not_row3 (h : Atan2Row4 F y x) : ¬ Atan2Row3 F y x := by
  obtain ⟨-, hx⟩ := h
  rintro ⟨hz, -⟩
  simp [not_isZero_of_isInf hx] at hz

/-- Row 5's x is not an infinity. -/
theorem Atan2Row5.not_row4 (h : Atan2Row5 F y x) : ¬ Atan2Row4 F y x := by
  obtain ⟨-, hx⟩ := h
  rintro ⟨-, hi⟩
  simp [not_isInf_of_isFinite hx] at hi

/-! ### The value of each row (R236) -/

section values

variable (fu : Bool) (k : CoefRom F) (apx : Bool)

theorem atan2Of_of_row1 (h : Atan2Row1 F y x) : atan2Of F fu k apx y x = zero F (signbit F y) := by
  rw [atan2Of_eq, if_pos h]

theorem atan2Of_of_row2 (h : Atan2Row2 F y x) : atan2Of F fu k apx y x = withSignOf F y (cPi F) := by
  rw [atan2Of_eq, if_neg h.not_row1, if_pos h]

theorem atan2Of_of_row3 (h : Atan2Row3 F y x) : atan2Of F fu k apx y x = withSignOf F y (cHalfPi F) := by
  obtain ⟨h1, h2⟩ := not_row1_row2_of_not_isZero (x := x) h.not_isZero
  rw [atan2Of_eq, if_neg h1, if_neg h2, if_pos h]

theorem atan2Of_of_row4 (h : Atan2Row4 F y x) :
    atan2Of F fu k apx y x =
      if signbit F x = true then withSignOf F y (cThreeQuarterPi F) else withSignOf F y (cQuarterPi F) := by
  obtain ⟨h1, h2⟩ := not_row1_row2_of_not_isZero (x := x) (not_isZero_of_isInf h.1)
  rw [atan2Of_eq, if_neg h1, if_neg h2, if_neg h.not_row3, if_pos h]

/-- Where row 3 comes before row 5, it has the same value. -/
theorem atan2Of_of_row5 (h : Atan2Row5 F y x) : atan2Of F fu k apx y x = withSignOf F y (cHalfPi F) := by
  obtain ⟨h1, h2⟩ := not_row1_row2_of_not_isZero (x := x) (not_isZero_of_isInf h.1)
  rw [atan2Of_eq, if_neg h1, if_neg h2, if_neg h.not_row4, if_pos h, ite_self]

/-- Row 6, everything else. -/
theorem atan2Of_of_no_row (h1 : ¬ Atan2Row1 F y x) (h2 : ¬ Atan2Row2 F y x) (h3 : ¬ Atan2Row3 F y x)
    (h4 : ¬ Atan2Row4 F y x) (h5 : ¬ Atan2Row5 F y x) :
    atan2Of F fu k apx y x =
      fadd F (atanOf F fu k apx (fdiv F y x))
        (if flt F x (cZero F) = true then withSignOf F y (cPi F) else zero F true) := by
  have hpi : copySignLane F y (cPi F) = withSignOf F y (cPi F) := copySignLane_of_positive (normalLane_pi F).sign
  rw [atan2Of_eq, if_neg h1, if_neg h2, if_neg h3, if_neg h4, if_neg h5, atan2General, sel_mask, hpi,
    cNegZero_eq_zero]

end values

end rows

/-! ### NaN operands (R105, R236) -/

section nans

variable {F : Fmt} {y x : Lane F} (fu : Bool) (k : CoefRom F) (apx : Bool)

theorem isNaN_fdiv (h : isNaN F y = true ∨ isNaN F x = true) : isNaN F (fdiv F y x) = true := by
  cases hy : isNaN F y
  · have hx := h.resolve_left (Bool.eq_false_iff.mp hy)
    rw [fdiv_of_isNaN_right hy hx]
    exact isNaN_quiet x hx
  · rw [fdiv_of_isNaN_left hy]
    exact isNaN_quiet y hy

theorem isNaN_fmul_right (hx : isNaN F x = true) : isNaN F (fmul F y x) = true := by
  cases hy : isNaN F y
  · rw [fmul_of_isNaN_right hy hx]
    exact isNaN_quiet x hx
  · rw [fmul_of_isNaN_left hy]
    exact isNaN_quiet y hy

/-- The arctangent of a NaN is a NaN for every ROM: the last product has the reciprocal, a NaN, as a factor. -/
theorem isNaN_atanOf (h : isNaN F x = true) : isNaN F (atanOf F fu k apx x) = true := by
  have hout : magnitude F (cOne F) < magnitude F x :=
    (magnitude_cOne_lt_infMagnitude F).trans (by simpa [isNaN] using h)
  have hinv : isNaN F (fdiv F (cOne F) x) = true := isNaN_fdiv (.inr h)
  rw [atanOf_of_outOfRange apx hout,
    fsub_of_isNaN_right (not_isNaN_of_isFinite isFinite_atanAnchor) (isNaN_fmul_right hinv)]
  exact isNaN_quiet _ (isNaN_fmul_right hinv)

/-- A NaN operand is in no row of the table. -/
theorem no_row_of_isNaN (h : isNaN F y = true ∨ isNaN F x = true) :
    ¬ Atan2Row1 F y x ∧ ¬ Atan2Row2 F y x ∧ ¬ Atan2Row3 F y x ∧ ¬ Atan2Row4 F y x ∧ ¬ Atan2Row5 F y x := by
  have hzero : ∀ {v : Lane F}, isNaN F v = true → isZero F v = false := fun hv =>
    Bool.eq_false_iff.mpr fun hz => by simp [not_isNaN_of_isZero hz] at hv
  have hinf : ∀ {v : Lane F}, isNaN F v = true → isInf F v = false := fun hv =>
    Bool.eq_false_iff.mpr fun hi => by simp [not_isNaN_of_isInf hi] at hv
  obtain hy | hx := h
  · simp [Atan2Row1, Atan2Row2, Atan2Row3, Atan2Row4, Atan2Row5, flt_cZero_iff, cZero_flt_iff, hzero hy, hinf hy, hy]
  · simp [Atan2Row1, Atan2Row2, Atan2Row3, Atan2Row4, Atan2Row5, flt_cZero_iff, cZero_flt_iff, eq_zero_iff, hzero hx,
      hinf hx, not_isFinite_of_isNaN hx, hx]

/-- The sum of row 6 returns its first operand's NaN, quieted. -/
theorem atan2Of_of_isNaN (h : isNaN F y = true ∨ isNaN F x = true) :
    atan2Of F fu k apx y x = quiet F (atanOf F fu k apx (fdiv F y x)) := by
  obtain ⟨h1, h2, h3, h4, h5⟩ := no_row_of_isNaN h
  rw [atan2Of_of_no_row fu k apx h1 h2 h3 h4 h5, fadd_of_isNaN_left (isNaN_atanOf fu k apx (isNaN_fdiv h))]

end nans

/-- Settles O57, row by row. -/
theorem atanTwoRows : Obligations.AtanTwoRows := by
  unfold Obligations.AtanTwoRows
  refine fun F fu k apx y x => ⟨atan2Of_of_row1 fu k apx, atan2Of_of_row2 fu k apx, atan2Of_of_row3 fu k apx,
    atan2Of_of_row4 fu k apx, atan2Of_of_row5 fu k apx, atan2Of_of_no_row fu k apx, fun h => ?_⟩
  rw [atan2Of_of_isNaN fu k apx h]
  exact ⟨isNaN_quiet _ (isNaN_atanOf fu k apx (isNaN_fdiv h)), quiet_quiet _⟩

/-! ### The identities (R241) -/

section identities

variable (F : Fmt) (fu : Bool) (k : CoefRom F) (apx : Bool)

theorem isZero_cZero : isZero F (cZero F) = true := by rw [cZero_eq_zero, isZero_zero]

theorem signbit_cZero : signbit F (cZero F) = false := by rw [cZero_eq_zero, signbit_zero]

theorem cZero_flt_cOne : flt F (cZero F) (cOne F) = true := by cases F <;> decide

theorem cNegOne_flt_cZero : flt F (cNegOne F) (cZero F) = true := by cases F <;> decide

theorem atan2Of_cZero_cOne : atan2Of F fu k apx (cZero F) (cOne F) = cZero F := by
  rw [atan2Of_of_row1 fu k apx ⟨isZero_cZero F, .inl (cZero_flt_cOne F)⟩, signbit_cZero, cZero_eq_zero]

theorem atan2Of_cOne_cZero : atan2Of F fu k apx (cOne F) (cZero F) = cHalfPi F := by
  rw [atan2Of_of_row3 fu k apx ⟨isZero_cZero F, .inr (cZero_flt_cOne F)⟩]
  exact withSignOf_of_signbit_eq ((normalLane_one F).sign.trans (normalLane_halfPi F).sign.symm)

theorem atan2Of_cZero_cNegOne : atan2Of F fu k apx (cZero F) (cNegOne F) = cPi F := by
  rw [atan2Of_of_row2 fu k apx ⟨isZero_cZero F, .inl (cNegOne_flt_cZero F)⟩]
  exact withSignOf_of_signbit_eq ((signbit_cZero F).trans (normalLane_pi F).sign.symm)

theorem atan2Of_cNegOne_cZero : atan2Of F fu k apx (cNegOne F) (cZero F) = flipSign F (cHalfPi F) := by
  have hpos : signbit F (cHalfPi F) = false := (normalLane_halfPi F).sign
  have hneg : signbit F (cNegOne F) = true := (normalLane_negOne F).sign
  rw [atan2Of_of_row3 fu k apx ⟨isZero_cZero F, .inl (cNegOne_flt_cZero F)⟩]
  exact withSignOf_of_signbit_ne (by rw [hneg, hpos, Bool.not_false])

theorem atan2Of_infinity_infinity : atan2Of F fu k apx (infinity F false) (infinity F false) = cQuarterPi F := by
  rw [atan2Of_of_row4 fu k apx ⟨isInf_infinity F _, isInf_infinity F _⟩, signbit_infinity,
    if_neg Bool.false_ne_true]
  exact withSignOf_of_signbit_eq ((signbit_infinity F false).trans (normalLane_quarterPi F).sign.symm)

end identities

/-- Settles O58: ATAN2 answers with its lane function, whose rows 1 to 4 decide the five pairs on every path. -/
theorem atanTwoIdentities : Obligations.AtanTwoIdentities := by
  unfold Obligations.AtanTwoIdentities
  intro F apx sb s
  obtain ⟨t, hexec, -, -, -, hlane, -⟩ := completes_of_answerBinary (exec_atan2 s F apx sb)
  refine ⟨t, hexec, fun j => ?_⟩
  simp only [hlane, atan2Lane]
  refine ⟨fun hy hx => ?_, fun hy hx => ?_, fun hy hx => ?_, fun hy hx => ?_, fun hy hx => ?_⟩ <;> rw [hy, hx]
  · exact atan2Of_cZero_cOne F _ _ apx
  · exact atan2Of_cOne_cZero F _ _ apx
  · exact atan2Of_cZero_cNegOne F _ _ apx
  · exact atan2Of_cNegOne_cZero F _ _ apx
  · exact atan2Of_infinity_infinity F _ _ apx

end Sys2Proof.Machine
end

section
/-!
PROOFS of 46_rom_status.md, the register reads RDCAP and RDSTAT (R252, R253). Both answer with one vector of the same form, a
register zero-extended in lane 0; the ROM reads of that file stand with the ROMs of 20_memory.md.
-/

namespace Sys2Proof.Machine

theorem registerLanes_get (F : Fmt) {n : Nat} (v : BitVec n) (j : Fin 4) :
    (registerLanes F v).get j = if j = 0 then v.setWidth F.width else 0 :=
  Lanes.single_get 0 (v.setWidth F.width) j

/-- A command that answers with a register completes with it in lane 0, whatever the width of the register. -/
theorem completes_of_answer_registerLanes {i : Instr} {s : State} {F : Fmt} {n : Nat} {v : BitVec n}
    (h : exec i s = answer1 s (registerLanes F v)) :
    Completes i s F (fun j => if j = 0 then v.setWidth F.width else 0) (noResult F) :=
  (completes_of_answer1 h).congr (registerLanes_get F v) fun _ => rfl

/-- Settles O41: RDCAP answers with `CAP` and RDSTAT with `STATUS`; that `STATUS` is not cleared is part of the frame that
`Completes` states. -/
theorem registerResult : Obligations.RegisterResult := by
  unfold Obligations.RegisterResult
  exact fun F s => ⟨completes_of_answer_registerLanes (exec_rdcap s F), completes_of_answer_registerLanes (exec_rdstat s F)⟩

end Sys2Proof.Machine
end

section
/-!
PROOFS of 60_exceptions.md. Every edge gives a next state, and every command word is answered with one of two codes, which
says whether the word is legal (R260, R261).
-/

namespace Sys2Proof.Machine

set_option Elab.async false

/-- Settles O7: a step is an edge. -/
theorem everyStepAnswers : Obligations.EveryStepAnswers := by
  unfold Obligations.EveryStepAnswers
  exact fun s => exists_edge_next Config.depth latencyOf s

/-- A word that decodes is answered OK (R260), since what it decodes to is well formed. -/
theorem runCommand_of_decode_ok {w : Word} {i : Instr} (hi : decode w = .ok i) (s : State) :
    ∃ r0 r1, runCommand w s = .next (s.respond codeOk r0 r1) := by
  obtain ⟨code, r0, r1, he, hcode⟩ := exec_eq_respond i s
  rw [hcode (wellFormed_of_decode hi)] at he
  exact ⟨r0, r1, by rw [runCommand, hi, ← he]⟩

theorem runCommand_of_decode_error {w : Word} {e : DecodeError} (he : decode w = .error e) (s : State) :
    runCommand w s = .next (s.respond codeIllegal 0 0) := by
  rw [runCommand, he]
  rfl

/-- Settles O8: a word is legal exactly when it decodes. -/
theorem twoResponseCodes : Obligations.TwoResponseCodes := by
  unfold Obligations.TwoResponseCodes
  intro w s
  have hlegal := decode_isOk_iff_legal w
  cases hw : decode w with
  | ok i =>
    obtain ⟨r0, r1, h⟩ := runCommand_of_decode_ok hw s
    exact ⟨_, h, sameButResponse_respond _ _ _ _, rfl, fun _ => rfl, fun hl => absurd (hlegal.mp ⟨i, hw⟩) hl⟩
  | error e =>
    refine ⟨_, runCommand_of_decode_error hw s, sameButResponse_respond _ _ _ _, rfl, fun hl => ?_, fun _ => rfl⟩
    obtain ⟨i, hi⟩ := hlegal.mpr hl
    rw [hw] at hi
    cases hi

end Sys2Proof.Machine
end

section
/-!
PROOFS of 70_reset_and_hazards.md. Reset (R290, R293), the wires that carry nothing (R296), `cmd_ready` (R297), the latency
(R298), and that none of these shows in the responses (R299).
-/

namespace Sys2Proof.Machine

set_option Elab.async false

/-! ### Timing is invisible (R299) -/

/-- The responses to the first commands are the first responses. -/
theorem transactAll_prefix (m : Mstu) {cs ds : List Command} (h : cs <+: ds) :
    (transactAll m cs).2 <+: (transactAll m ds).2 := by
  obtain ⟨rest, rfl⟩ := h
  rw [transactAll_append]
  exact List.prefix_append _ _

/-- A machine that starts with `Q` empty has answered the first of the commands it accepted. -/
theorem Answers.of_empty {s t : State} {accepted : List Command} {delivered : List Answer} (hq : s.q = [])
    (h : Answers s t accepted delivered) :
    ∃ done, done <+: accepted ∧ delivered = (transactAll s.mstu done).2 := by
  obtain ⟨done, hdone, hfold⟩ := h
  rw [hq] at hdone
  exact ⟨done, ⟨_, hdone.symm⟩, by rw [hfold]⟩

/-- Settles O21: by the fold of R299 (`run_answers`) either machine has answered the first of the commands accepted, so the
one that has answered fewer has answered the first of those that the other has. -/
theorem timingInvisible : Obligations.TimingInvisible := by
  unfold Obligations.TimingInvisible
  intro depth depth' lat lat' n n' s s' hi hi' hq hq' hm hn hn' hacc hlen
  obtain ⟨done, hpre, hdel⟩ := (run_answers (lat := lat) hi hn).of_empty hq
  obtain ⟨done', hpre', hdel'⟩ := (run_answers (lat := lat') hi' hn').of_empty hq'
  rw [hacc] at hpre
  rw [hdel, hdel', transactAll_length, transactAll_length] at hlen
  have hshort : done <+: done' := List.prefix_of_prefix_length_le hpre hpre' hlen
  rw [hdel, hdel', hm]
  exact List.prefix_iff_eq_take.mp (transactAll_prefix s'.mstu hshort)

/-! ### Wires that carry nothing (R31, R293, R296) -/

section wires

variable {depth : Nat} {lat : BitVec 3 → Word → Nat} {s : State} {p p' : Pins} {ps : List Pins}

/-- At an edge with no reset the wires matter through the handshakes alone. -/
theorem edge_congr_handshake (hi : s.inputs = p :: ps) (hr : p.rstN = true) (hr' : p'.rstN = true)
    (h : handshake depth lat p' (popInputs s) = handshake depth lat p (popInputs s)) :
    edge depth lat { s with inputs := p' :: ps } = edge depth lat s := by
  have hpins : s.pins = p := by rw [State.pins, hi]; rfl
  have hpins' : State.pins { s with inputs := p' :: ps } = p' := rfl
  have hpop : popInputs { s with inputs := p' :: ps } = popInputs s := by rw [popInputs, popInputs, hi]; rfl
  simp only [edge, hpins, hpins', hpop, hr, hr', if_true, h]

/-- With no command accepted, the handshakes do not read the command's wires. -/
theorem handshake_of_not_accepted (h : commandAccepted p s = false) :
    handshake depth lat p s = driveIdle (setReady depth (ageQueue (takeResponse p s))) := by
  have hacc : commandAccepted p (ageQueue (takeResponse p s)) = false := by simpa [commandAccepted] using h
  simp only [handshake, acceptCommand, hacc, Bool.false_eq_true, if_false]

theorem handshake_congr_of_not_accepted (hvalid : p'.cmdValid = p.cmdValid) (hready : p'.rspReady = p.rspReady)
    (h : commandAccepted p s = false) : handshake depth lat p' s = handshake depth lat p s := by
  have h' : commandAccepted p' s = false := by rwa [commandAccepted, hvalid]
  have htaken : responseTaken p' s = responseTaken p s := by rw [responseTaken, hready, responseTaken]
  have htake : takeResponse p' s = takeResponse p s := by rw [takeResponse, htaken, takeResponse]
  rw [handshake_of_not_accepted h', handshake_of_not_accepted h, htake]

/-- With no response presented, the handshakes do not read `rsp_ready`. -/
theorem handshake_of_not_presented (h : s.rspValid = false) :
    handshake depth lat p s = driveIdle (setReady depth (acceptCommand lat p (ageQueue s))) := by
  have htake : takeResponse p s = s := by simp [takeResponse, responseTaken, h]
  rw [handshake, htake]

theorem handshake_congr_of_not_presented (r : Bool) (h : s.rspValid = false) :
    handshake depth lat { p with rspReady := r } s = handshake depth lat p s := by
  rw [handshake_of_not_presented h, handshake_of_not_presented h]
  rfl

end wires

/-- Settles O12: no handshake reads `CAP_IN`. -/
theorem capInIgnored : Obligations.CapInIgnored := by
  unfold Obligations.CapInIgnored
  intro s p ps v hi hr
  exact edge_congr_handshake hi hr hr rfl

/-- Settles O13: with no command accepted, or with no response presented, the handshakes come to the same. -/
theorem idleWiresIgnored : Obligations.IdleWiresIgnored := by
  unfold Obligations.IdleWiresIgnored
  intro s p ps hi hr
  exact ⟨fun hacc _ _ _ _ => edge_congr_handshake hi hr hr (handshake_congr_of_not_accepted rfl rfl hacc),
    fun hv r => edge_congr_handshake hi hr hr (handshake_congr_of_not_presented r hv)⟩

/-! ### `cmd_ready` (R297) -/

section ready

variable {depth : Nat} {lat : BitVec 3 → Word → Nat} {s t : State}

/-- R297: the last edge was no reset edge and `Q` has room. -/
theorem edge_cmdReady_iff (h : edge depth lat s = .next t) :
    t.cmdReady = true ↔ s.pins.rstN = true ∧ t.q.length < depth := by
  cases hr : s.pins.rstN with
  | false => simp [edge_reset h hr]
  | true => simp [edge_cmdReady h hr]

/-- An edge that delivers a response and accepts a command leaves as many commands in flight as there were. -/
theorem edge_q_length_of_both (h : edge depth lat s = .next t) (hr : s.pins.rstN = true) (hq : s.q ≠ [])
    (ht : responseTaken s.pins s = true) (ha : commandAccepted s.pins s = true) : t.q.length = s.q.length := by
  have hpos : 0 < s.q.length := List.length_pos_iff.mpr hq
  rw [edge_q h hr, if_pos ht, if_pos ha, List.length_append, List.length_map, List.length_tail,
    List.length_singleton]
  omega

end ready

theorem depth_pos : 1 ≤ Config.depth := Nat.le_add_left 1 _

/-- Settles O16. -/
theorem commandReady : Obligations.CommandReady := by
  unfold Obligations.CommandReady
  exact ⟨fun s t h => edge_cmdReady_iff h, fun s t h hr hq ht ha => edge_q_length_of_both h hr hq ht ha, depth_pos⟩

/-! ### Reset (R290) -/

section reset

variable {depth : Nat} {lat : BitVec 3 → Word → Nat} {s t : State}

theorem edge_eq_resetEdge (depth : Nat) (lat : BitVec 3 → Word → Nat) (hr : s.pins.rstN = false) :
    edge depth lat s = .next (resetEdge s.pins (popInputs s)) := by
  obtain ⟨t, ht⟩ := exists_edge_next depth lat s
  rw [ht, edge_reset ht hr]

/-- While `cmd_ready` is 0, an empty `Q` stays empty (R296). -/
theorem edge_q_of_empty (h : edge depth lat s = .next t) (hr : s.pins.rstN = true) (hq : s.q = [])
    (hready : s.cmdReady = false) : t.q = [] := by
  rw [edge_q h hr, hq]
  simp [commandAccepted, hready]

/-- With no response presented before an edge and no command in flight after it, no response is presented after it. -/
theorem edge_rspValid_of_empty (h : edge depth lat s = .next t) (hr : s.pins.rstN = true) (hv : s.rspValid = false)
    (hq : t.q = []) : t.rspValid = false := by
  cases hv' : t.rspValid with
  | false => rfl
  | true =>
    obtain ⟨hheld, -⟩ | ⟨e, rest, hq', -⟩ := edge_presented h hr hv'
    · rw [hv] at hheld
      cases hheld
    · rw [hq] at hq'
      cases hq'

/-- With no response presented, none is delivered, so `STATUS` does not change (R24). -/
theorem edge_status_of_not_presented (h : edge depth lat s = .next t) (hr : s.pins.rstN = true)
    (hv : s.rspValid = false) : t.status = s.status := by
  rw [edge_status h hr]
  simp [responseTaken, hv]

end reset

/-- Settles O10: a reset edge is `resetEdge`, and at the edge after it there is no command to accept, answer or deliver, so
`Q` has room. (The name `resetEdge` is the model's own.) -/
theorem resetEdgeLeaves : Obligations.ResetEdge := by
  unfold Obligations.ResetEdge
  intro s hr
  refine ⟨_, edge_eq_resetEdge _ _ hr, by simp, by simp, by simp, by simp, by simp, by simp, by simp, by simp, ?_⟩
  generalize ht : resetEdge s.pins (popInputs s) = t
  have hq : t.q = [] := by simp [← ht]
  have hready : t.cmdReady = false := by simp [← ht]
  have hv : t.rspValid = false := by simp [← ht]
  have hstatus : t.status = 0 := by simp [← ht]
  intro hr'
  obtain ⟨u, hu⟩ := exists_edge_next Config.depth latencyOf t
  have huq : u.q = [] := edge_q_of_empty hu hr' hq hready
  have huready : u.cmdReady = true := (edge_cmdReady_iff hu).mpr ⟨hr', by rw [huq]; exact depth_pos⟩
  exact ⟨u, hu, huready, huq, edge_rspValid_of_empty hu hr' hv huq, edge_cap hu hr',
    (edge_status_of_not_presented hu hr' hv).trans hstatus⟩

/-! ### The latency (R298) -/

/-- In `t` the command `c` is the oldest of `Q` with `k` edges to wait, its response is presented exactly when there are none
left, and the response is the one of R299 to `c` in `m`. -/
structure Waits (m : Mstu) (c : Command) (k : Nat) (t : State) : Prop where
  mstu : t.mstu = m
  head : ∃ rest, t.q = { cmd := c, wait := k } :: rest
  presented : t.rspValid = true ↔ k = 0
  answer : t.rspValid = true → t.answer = (transact m c).2

section latency

variable {depth : Nat} {lat : BitVec 3 → Word → Nat} {s t : State} {m : Mstu} {c : Command} {k n : Nat}

/-- Presenting what is due: the oldest command of `Q` gets its response if its wait is over, and waits on otherwise. -/
theorem presentDue_waits (h : presentDue s = .next t) (hv : s.rspValid = false)
    (hq : ∃ rest, s.q = { cmd := c, wait := k } :: rest) : Waits s.mstu c k t := by
  obtain ⟨rest, hq⟩ := hq
  obtain ⟨hd, rfl⟩ | ⟨hd, hs, hv', ha⟩ := presentDue_next h
  · have hk : k ≠ 0 := by
      rintro rfl
      rw [dueCommand_of_q hv hq rfl] at hd
      cases hd
    exact ⟨rfl, ⟨rest, hq⟩, by simp [hv, hk], by simp [hv]⟩
  · obtain ⟨-, e, rest', hq', hwait, -⟩ := dueCommand_eq_some hd
    obtain ⟨rfl, -⟩ := List.cons.inj (hq.symm.trans hq')
    exact ⟨hs.mstu_eq, ⟨rest, hs.q.trans hq⟩, iff_of_true hv' hwait, fun _ => by rw [ha, command_of_q hq]⟩

/-- The same of an edge with no reset, before which no response is presented: the handshakes deliver none. -/
theorem edge_waits (h : edge depth lat s = .next t) (hr : s.pins.rstN = true) (hv : s.rspValid = false)
    (hq : ∃ rest, (handshake depth lat s.pins (popInputs s)).q = { cmd := c, wait := k } :: rest) :
    Waits s.mstu c k t := by
  have hm : (handshake depth lat s.pins (popInputs s)).mstu = s.mstu := handshake_mstu hv
  rw [← hm]
  exact presentDue_waits (edge_noReset h hr) (by simp [hv]) hq

/-- A command accepted by an empty machine is the oldest of `Q`, with `LAT - 1` edges to wait. -/
theorem accept_waits (h : edge depth lat s = .next t) (hr : s.pins.rstN = true) (hq : s.q = [])
    (hv : s.rspValid = false) (ha : commandAccepted s.pins s = true) :
    Waits s.mstu (commandOfPins s.pins) (lat s.cap s.pins.cmdWord - 1) t :=
  edge_waits h hr hv ⟨[], by simp [hq, ha]⟩

/-- Every edge takes one off the wait. -/
theorem Waits.edge (hw : Waits m c (k + 1) s) (h : edge depth lat s = .next t) (hr : s.pins.rstN = true) :
    Waits m c k t := by
  have hv : s.rspValid = false := Bool.eq_false_iff.mpr fun hv => Nat.succ_ne_zero k (hw.presented.mp hv)
  obtain ⟨rest, hq⟩ := hw.head
  rw [← hw.mstu]
  exact edge_waits h hr hv (by simp [responseTaken, hv, hq])

theorem Waits.run (hw : Waits m c (k + n) s) (hn : NoReset n s) : Waits m c k (runEdges depth lat n s).2.2 := by
  induction n generalizing s with
  | zero => exact hw
  | succ n ih =>
    obtain ⟨t, ht⟩ := exists_edge_next depth lat s
    rw [runEdges_succ ht]
    exact ih (hw.edge ht hn.rstN) (hn.edge ht)

end latency

theorem latencyOf_pos (cap : BitVec 3) (w : Word) : 1 ≤ latencyOf cap w := by
  unfold latencyOf
  split <;> exact Nat.le_add_left 1 _

/-- Settles O17: the accepted command has `LAT - 1` edges to wait after the first edge and `LAT - n` after `n`. -/
theorem latencyExact : Obligations.LatencyExact := by
  unfold Obligations.LatencyExact
  refine ⟨?_, latencyOf_pos⟩
  intro depth lat s n hq hv hready hr hvalid hpos hle hn
  obtain ⟨n, rfl⟩ := Nat.exists_eq_add_of_le' hpos
  obtain ⟨t, ht⟩ := exists_edge_next depth lat s
  have hfirst := accept_waits ht hr hq hv (by rw [commandAccepted, hvalid, hready]; rfl)
  have hsplit : lat s.cap s.pins.cmdWord - 1 = lat s.cap s.pins.cmdWord - (n + 1) + n := by omega
  rw [hsplit] at hfirst
  have hlast := hfirst.run (depth := depth) (lat := lat) (hn.edge ht)
  rw [runEdges_succ ht]
  refine ⟨hlast.presented.trans ?_, hlast.answer⟩
  omega

end Sys2Proof.Machine
end
